-- ==== Sys2Proof/Word.lean ====
section
/-! DEFINITION. The data the block moves: bytes, channels, pixels, the dispatch word, and the codes
of the `phase` register (spec/00_scope.md R10, spec/10_state.md R22 to R29, spec/30_encoding.md R88). -/

namespace Sys2Proof

/-- A byte of the receive stream, always read as an unsigned number 0 to 255 (R10). -/
abbrev Byte := BitVec 8

/-- One colour channel: 8 bits, unsigned (R8 `CHANNEL_BITS`, R22). -/
abbrev Channel := BitVec 8

/-- The 12-bit dispatch word: `phase` in bits 11:9, `rx_avail` in bit 8, `rx_data` in bits 7:0
(R88). -/
abbrev DispatchWord := BitVec 12

/-- A pixel, the triple `(r, g, b)` in that order (R22, R23, R54). A RawColor and a CorrectedColor
have this same shape. -/
structure Pixel where
  r : Channel
  g : Channel
  b : Channel
  deriving DecidableEq, Repr

/-- The pixel `(0, 0, 0)`. -/
def Pixel.black : Pixel := ⟨0, 0, 0⟩

/-- The eight codes of the 3-bit register `phase` (R27). Seven are phases of a tick; the eighth,
0b111, is a code the register can hold and no operation writes (R90). The 3-bit code of each is
`Phase.code` in Decode.lean. -/
inductive Phase where
  | poll | payload | fade | assign | correct | submit | delay
  /-- The code 0b111: no phase, selects ILLEGAL (R90). -/
  | unused
  deriving DecidableEq, Repr

end Sys2Proof
end

