-- ==== Sys2Proof/Config.lean ====
section
/-! DEFINITION. What an implementation fixes: the sizes the source states, the shape and legality of
the configuration record (spec/00_scope.md R8, R9), and the one free value of the model. The
reference contents of the record are in Machine/Tables.lean. -/

namespace Sys2Proof

/-! ## Sizes the source states (R8) -/

/-- `N_PIXELS`. -/
abbrev nPixels : Nat := 60
/-- `N_ZONES`. -/
abbrev nZones : Nat := 6
/-- `FRAME_LEN`: bytes in a ControlFrame (R80). -/
abbrev frameLen : Nat := 14
/-- `PAYLOAD_LEN`: bytes after the marker, as SOF loads it into the 4-bit `pcnt` (R28). -/
abbrev payloadLen : BitVec 4 := 13
/-- `MARKER_LO`. -/
abbrev markerLo : Byte := 0x30
/-- `MARKER_HI`. -/
abbrev markerHi : Byte := 0x6F

/-- A PixelIndex, 0 to 59 (R22, R50). -/
abbrev PixelIndex := Fin nPixels

/-- A buffer of 60 pixels, pixel 0 first (R22, R23); also a submitted frame (R31, R54). -/
structure PixelBuffer where
  pixels : List Pixel
  size : pixels.length = nPixels
  deriving DecidableEq, Repr

/-! ## The configuration record (R8, R9) -/

/-- A row of the ZoneMap: the bit of `mask` that lights the zone, its half-open range of pixels and
its colour (R140). -/
structure Zone where
  bit : Fin nZones
  lo : Nat
  hi : Nat
  color : Pixel
  deriving DecidableEq, Repr

/-- Pixel `i` lies in the zone: `lo <= i < hi` (R140). -/
def Zone.covers (z : Zone) (i : Nat) : Bool := decide (z.lo ≤ i) && decide (i < z.hi)

/-- What makes a configuration legal (R9, R142): six rows, each bit number in exactly one; every range
proper and within the strip; every pixel in exactly one zone; a gamma table of 256 entries that never
decreases and runs from 0 to 255; a fade rate of at least 1 (at most 255 by its width). -/
abbrev ConfigLegal (zones : List Zone) (gamma : List Channel) (fadeRate : Byte) : Prop :=
  zones.length = nZones ∧
  (zones.map Zone.bit).Nodup ∧
  (∀ z ∈ zones, z.lo < z.hi ∧ z.hi ≤ nPixels) ∧
  (∀ i < nPixels, (zones.filter (·.covers i)).length = 1) ∧
  gamma.length = 256 ∧
  (∀ v < 255, gamma.getD v 0 ≤ gamma.getD (v + 1) 0) ∧
  gamma.getD 0 0 = 0 ∧
  gamma.getD 255 0 = 255 ∧
  1 ≤ fadeRate

/-- The configuration record (R8). It carries the proof of its legality, so an illegal record cannot
be built (R193; spec/93_implementation_defined.md U5). -/
structure Config where
  /-- `ZONE[0..5]` in write order (R141, R146). -/
  zones : List Zone
  /-- `GAMMA[0..255]` (R110, R111). -/
  gamma : List Channel
  /-- `FADE_RATE` (R151). -/
  fadeRate : Byte
  /-- `TICK_HZ`, nominal; no operation reads it (R172, R240). -/
  tickHz : Nat
  /-- `RESET_MASK` (R36). -/
  resetMask : BitVec 8
  /-- `RESET_RAW` (R36). -/
  resetRaw : PixelBuffer
  legal : ConfigLegal zones gamma fadeRate
  deriving DecidableEq, Repr

/-! ## The free value -/

/-- FREE VALUE (notes/assumptions/5.md). What the last PLD of a frame writes to `mask` when `sof` holds
a byte that is not a marker: R83 defines `extract` for markers only. No run from reset meets it
(R37(c)). -/
opaque Config.extractUnstated : Byte → BitVec 8

end Sys2Proof
end

