-- ==== Sys2Proof/Machine/Tables.lean ====
section
/-! DEFINITION. The reference contents of the configuration record: the zone table
(spec/42_light_state_mapper.md R141), the gamma table (spec/40_gamma_table.md R112), the fade rate and
the reset values (spec/00_scope.md R8). They are the spec's decisions D9, D10, D12 to D15, one
admissible configuration among others (notes/assumptions/1.md). -/

namespace Sys2Proof

/-- A buffer whose 60 pixels are all `p`. -/
def PixelBuffer.fill (p : Pixel) : PixelBuffer := ⟨List.replicate nPixels p, List.length_replicate⟩

/-- The colour of the four marquee zones (R141, D10). -/
def Config.marqueeColor : Pixel := ⟨0xFF, 0x80, 0x00⟩

/-- The colour of the two bass zones (R141, D10). -/
def Config.bassColor : Pixel := ⟨0x00, 0x40, 0xFF⟩

/-- The reference zone table, in write order: upper-left marquee, lower-left marquee, left bass, right
bass, lower-right marquee, upper-right marquee (R141). -/
def Config.referenceZones : List Zone :=
  [ ⟨0,  0, 10, Config.marqueeColor⟩,
    ⟨2, 10, 20, Config.marqueeColor⟩,
    ⟨4, 20, 30, Config.bassColor⟩,
    ⟨5, 30, 40, Config.bassColor⟩,
    ⟨3, 40, 50, Config.marqueeColor⟩,
    ⟨1, 50, 60, Config.marqueeColor⟩ ]

/-- The reference gamma table, sixteen entries a line, index 0 first (R112). -/
def Config.referenceGamma : List Channel :=
  [0x00, 0x00, 0x00, 0x00, 0x00, 0x00, 0x00, 0x00, 0x00, 0x00, 0x00, 0x00, 0x00, 0x00, 0x00, 0x00] ++
  [0x00, 0x00, 0x00, 0x00, 0x00, 0x00, 0x00, 0x00, 0x00, 0x00, 0x00, 0x00, 0x01, 0x01, 0x01, 0x01] ++
  [0x01, 0x01, 0x01, 0x01, 0x01, 0x01, 0x01, 0x01, 0x01, 0x02, 0x02, 0x02, 0x02, 0x02, 0x02, 0x02] ++
  [0x02, 0x03, 0x03, 0x03, 0x03, 0x03, 0x03, 0x03, 0x04, 0x04, 0x04, 0x04, 0x04, 0x05, 0x05, 0x05] ++
  [0x05, 0x06, 0x06, 0x06, 0x06, 0x07, 0x07, 0x07, 0x07, 0x08, 0x08, 0x08, 0x09, 0x09, 0x09, 0x0A] ++
  [0x0A, 0x0A, 0x0B, 0x0B, 0x0B, 0x0C, 0x0C, 0x0D, 0x0D, 0x0D, 0x0E, 0x0E, 0x0F, 0x0F, 0x10, 0x10] ++
  [0x11, 0x11, 0x12, 0x12, 0x13, 0x13, 0x14, 0x14, 0x15, 0x15, 0x16, 0x16, 0x17, 0x18, 0x18, 0x19] ++
  [0x19, 0x1A, 0x1B, 0x1B, 0x1C, 0x1D, 0x1D, 0x1E, 0x1F, 0x20, 0x20, 0x21, 0x22, 0x23, 0x23, 0x24] ++
  [0x25, 0x26, 0x27, 0x27, 0x28, 0x29, 0x2A, 0x2B, 0x2C, 0x2D, 0x2E, 0x2F, 0x30, 0x31, 0x32, 0x32] ++
  [0x33, 0x34, 0x36, 0x37, 0x38, 0x39, 0x3A, 0x3B, 0x3C, 0x3D, 0x3E, 0x3F, 0x40, 0x42, 0x43, 0x44] ++
  [0x45, 0x46, 0x48, 0x49, 0x4A, 0x4B, 0x4D, 0x4E, 0x4F, 0x51, 0x52, 0x53, 0x55, 0x56, 0x57, 0x59] ++
  [0x5A, 0x5C, 0x5D, 0x5F, 0x60, 0x62, 0x63, 0x65, 0x66, 0x68, 0x69, 0x6B, 0x6D, 0x6E, 0x70, 0x72] ++
  [0x73, 0x75, 0x77, 0x78, 0x7A, 0x7C, 0x7E, 0x7F, 0x81, 0x83, 0x85, 0x87, 0x89, 0x8A, 0x8C, 0x8E] ++
  [0x90, 0x92, 0x94, 0x96, 0x98, 0x9A, 0x9C, 0x9E, 0xA0, 0xA2, 0xA4, 0xA7, 0xA9, 0xAB, 0xAD, 0xAF] ++
  [0xB1, 0xB4, 0xB6, 0xB8, 0xBA, 0xBD, 0xBF, 0xC1, 0xC4, 0xC6, 0xC8, 0xCB, 0xCD, 0xD0, 0xD2, 0xD5] ++
  [0xD7, 0xDA, 0xDC, 0xDF, 0xE1, 0xE4, 0xE7, 0xE9, 0xEC, 0xEF, 0xF1, 0xF4, 0xF7, 0xF9, 0xFC, 0xFF]

/-- The reference configuration (R8, column "reference value"). -/
def Config.reference : Config where
  zones := Config.referenceZones
  gamma := Config.referenceGamma
  fadeRate := 64
  tickHz := 100
  resetMask := 0x00
  resetRaw := PixelBuffer.fill Pixel.black
  legal := by decide +kernel

end Sys2Proof
end

