-- ==== Sys2Proof/Machine/State.lean ====
section
/-! DEFINITION. The state of the block and of the environment it touches, the reasons a step can stop,
and the state after reset (spec/10_state.md R20 to R36). -/

namespace Sys2Proof.Machine

/-- What the environment can do between two operations of the block (R177, R204). -/
inductive EnvEvent where
  /-- The byte source appends a byte to `rxq` (R30, R63). -/
  | rx (b : Byte)
  /-- The lines of `rx_data`, undefined while `rx_avail = 0`, come to carry another value (R88, R202;
  notes/assumptions/6.md). -/
  | idleLines (b : Byte)
  /-- The reset input `rst` is asserted and released (R204, R220). -/
  | rst
  deriving DecidableEq, Repr

/-- The state a step acts on. `mask` to `sof` are the block's (R20); `rxq` and `txlog` are the two
collaborators' (R21(b), R21(c)); `cfg` is the configuration argument (R21(a)); `rxIdle` and `inputs`
are the model's own. -/
structure State where
  /-- The configuration record, an argument of the step that nothing writes (R8, R21(a);
  notes/assumptions/1.md). -/
  cfg : Config
  /-- The current LightBitmask (R24). -/
  mask : BitVec 8
  /-- The raw pixel buffer (R22). -/
  raw : PixelBuffer
  /-- The corrected pixel buffer (R23). -/
  cor : PixelBuffer
  /-- Where in the tick the sequencer stands (R27). -/
  phase : Phase
  /-- Payload bytes of the current frame still to be consumed (R28). -/
  pcnt : BitVec 4
  /-- Byte 0 of the frame being received (R29). -/
  sof : Byte
  /-- The unread bytes of the byte source, oldest first (R30). -/
  rxq : List Byte
  /-- The frames submitted since reset, oldest first (R31). -/
  txlog : List PixelBuffer
  /-- FREE VALUE. What the lines of `rx_data` carry while `rx_avail = 0` (R88, R202;
  notes/assumptions/6.md). -/
  rxIdle : Byte
  /-- What the environment does after each coming operation, the next one first; nothing after the
  list's end (R177; notes/assumptions/2.md). -/
  inputs : List (List EnvEvent)
  deriving DecidableEq, Repr

/-- The reasons a step can stop with a fault: none, "the block has no fault" (R209, R190). Safe. -/
inductive Fault
  deriving DecidableEq, Repr

/-- The reasons a step has no meaning. No run from reset meets one (R37). -/
inductive Refusal where
  /-- An instruction whose arm of `exec` has no meaning yet; no arm of this model answers it. Safe. -/
  | notModelled (mnemonic : String)
  /-- Raised by ILLEGAL: `phase` holds 0b111, which selects no operation (R90, D25, U1). Safe: the
  spec has a model refuse it. -/
  | illegalPhase
  /-- Raised by PLD when `pcnt` is 0, 14 or 15 (R28, D25, U2). Safe: the spec has a model refuse it. -/
  | pcntOutOfRange
  /-- Raised by DROP, SOF and PLD when `rxq` is empty: `RxPop()` is defined only when `RxAvail()` is
  true (R11), and the model refuses it otherwise (DESIGN CHOICE, notes/assumptions/10.md). Safe: `step`
  never selects one of them then (R89). -/
  | rxPopEmpty
  /-- Raised by `step` when no row of the operation map selects the dispatch word. Safe: every word is
  selected by one (R89). -/
  | noRow
  deriving DecidableEq, Repr

/-- What the meaning of an operation answers. -/
abbrev Result := Host.Outcome State Fault Refusal

/-- The state right after reset, in the reference configuration (R8, R36), with nothing queued and an
environment that does nothing (notes/assumptions/2.md, 3.md, 6.md). -/
def State.reset : State where
  cfg := Config.reference
  mask := Config.reference.resetMask
  raw := Config.reference.resetRaw
  cor := PixelBuffer.fill Pixel.black
  phase := .poll
  pcnt := 0
  sof := 0x00
  rxq := []
  txlog := []
  rxIdle := 0x00
  inputs := []

/-! ## Register writes (R11) -/

/-- `mask <- v`. -/
def State.setMask (s : State) (v : BitVec 8) : State := { s with mask := v }

/-- `raw <- v`. -/
def State.setRaw (s : State) (v : PixelBuffer) : State := { s with raw := v }

/-- `cor <- v`. -/
def State.setCor (s : State) (v : PixelBuffer) : State := { s with cor := v }

/-- `phase <- v`. -/
def State.setPhase (s : State) (v : Phase) : State := { s with phase := v }

/-- `pcnt <- v`. -/
def State.setPcnt (s : State) (v : BitVec 4) : State := { s with pcnt := v }

/-- `sof <- v`. -/
def State.setSof (s : State) (v : Byte) : State := { s with sof := v }

/-- `rxq <- v`. -/
def State.setRxq (s : State) (v : List Byte) : State := { s with rxq := v }

/-- `txlog <- v`. -/
def State.setTxlog (s : State) (v : List PixelBuffer) : State := { s with txlog := v }

/-- `rxIdle <- v`. -/
def State.setRxIdle (s : State) (v : Byte) : State := { s with rxIdle := v }

/-- `inputs <- v`. -/
def State.setInputs (s : State) (v : List (List EnvEvent)) : State := { s with inputs := v }

end Sys2Proof.Machine
end

