-- ==== Sys2Proof/Machine/Flags.lean ====
section
/-! DEFINITION. The conditions the sequencer branches on and the extraction of the bitmask. No flag is
stored (spec/10_state.md R35): each condition is computed where it is used. -/

namespace Sys2Proof.Machine

/-- The marker predicate: 0x30 to 0x6F, unsigned (R82). -/
def isMarker (b : Byte) : Bool := decide (markerLo ≤ b) && decide (b ≤ markerHi)

/-- The bitmask a frame with byte 0 equal to `b` carries: `b - 0x30`, defined for markers (R83). Of any
other byte the value is free (notes/assumptions/5.md). -/
def extract (b : Byte) : BitVec 8 :=
  if isMarker b then b - markerLo else Config.extractUnstated b

/-- The gate-level form of `extract` (R84). -/
def extractGates (b : Byte) : BitVec 8 :=
  0b00#2 ++ BitVec.ofBool (b.getLsbD 6 && (b.getLsbD 5 || b.getLsbD 4)) ++
    BitVec.ofBool (!b.getLsbD 4) ++ b.extractLsb' 0 4

/-- `pcnt` holds a number of payload bytes still to come that a frame can have, 1 to 13 (R28). -/
def pcntInFrame (n : BitVec 4) : Bool := decide (1 ≤ n) && decide (n ≤ payloadLen)

/-! The fields of `mask` (R24). -/

/-- Upper-left marquee, bit 0. -/
def maskUL (m : BitVec 8) : Bool := m.getLsbD 0
/-- Upper-right marquee, bit 1. -/
def maskUR (m : BitVec 8) : Bool := m.getLsbD 1
/-- Lower-left marquee, bit 2. -/
def maskLL (m : BitVec 8) : Bool := m.getLsbD 2
/-- Lower-right marquee, bit 3. -/
def maskLR (m : BitVec 8) : Bool := m.getLsbD 3
/-- Left bass, bit 4. -/
def maskBL (m : BitVec 8) : Bool := m.getLsbD 4
/-- Right bass, bit 5. -/
def maskBR (m : BitVec 8) : Bool := m.getLsbD 5

/-- The zone's bit of `mask` is 1 (R140, R143). -/
def isLit (mask : BitVec 8) (z : Zone) : Bool := mask.getLsbD z.bit

end Sys2Proof.Machine
end

