-- ==== Sys2Proof/Machine/Operands.lean ====
section
/-! DEFINITION. The operand forms (spec/43_render_pipeline.md R161): a pixel by PixelIndex, a gamma entry
by channel value, the zone row of a pixel, and the value each render operation gives a channel or a
pixel. -/

namespace Sys2Proof

/-- `raw[i]` or `cor[i]` (R11). -/
def PixelBuffer.get (b : PixelBuffer) (i : PixelIndex) : Pixel :=
  b.pixels[i.val]'(b.size.symm ▸ i.isLt)

/-- `GAMMA[v]`: the channel, zero-extended, is the index (R110, R161). -/
def Config.gammaAt (cfg : Config) (v : Channel) : Channel :=
  cfg.gamma[v.toNat]'(cfg.legal.2.2.2.2.1.symm ▸ v.isLt)

/-- Some zone covers every pixel of a legal configuration (R142). -/
theorem Config.covered (cfg : Config) (i : PixelIndex) :
    (cfg.zones.find? (·.covers i.val)).isSome = true := by
  have h := cfg.legal.2.2.2.1 i.val i.isLt
  rw [List.find?_isSome]
  have hne : cfg.zones.filter (·.covers i.val) ≠ [] := by
    intro h0
    simp [h0] at h
  obtain ⟨z, hz⟩ := List.exists_mem_of_ne_nil _ hne
  exact ⟨z, List.mem_filter.mp hz⟩

/-- `zone_of(i)`: the row whose range holds pixel `i` (R142). -/
def Config.zoneOf (cfg : Config) (i : PixelIndex) : Zone :=
  (cfg.zones.find? (·.covers i.val)).get (cfg.covered i)

namespace Machine

/-- `fade(c) = floor(c * (256 - FADE_RATE) / 256)` (R151). -/
def fadeChannel (rate : Byte) (c : Channel) : Channel :=
  BitVec.ofNat 8 (c.toNat * (256 - rate.toNat) / 256)

/-- The three channels of a pixel fade independently (R151). -/
def fadePixel (rate : Byte) (p : Pixel) : Pixel :=
  ⟨fadeChannel rate p.r, fadeChannel rate p.g, fadeChannel rate p.b⟩

/-- The same table serves the three channels (R110, R153). -/
def correctPixel (cfg : Config) (p : Pixel) : Pixel :=
  ⟨cfg.gammaAt p.r, cfg.gammaAt p.g, cfg.gammaAt p.b⟩

end Machine

end Sys2Proof
end

