-- ==== Sys2Proof/Machine/Ops.lean ====
section
/-! DEFINITION. The operations on buffers, streams and the environment that the meanings and the step
share. The block takes no exception (spec/60_exceptions.md R190, R197), so none is taken here. -/

namespace Sys2Proof

/-- `for i in 0..59: b[i] <- f(b[i])`. -/
def PixelBuffer.map (f : Pixel → Pixel) (b : PixelBuffer) : PixelBuffer :=
  ⟨b.pixels.map f, by rw [List.length_map, b.size]⟩

/-- `for i in lo..hi-1: b[i] <- c` (R143). -/
def PixelBuffer.paint (lo hi : Nat) (c : Pixel) (b : PixelBuffer) : PixelBuffer :=
  ⟨b.pixels.mapIdx (fun i p => if lo ≤ i ∧ i < hi then c else p), by rw [List.length_mapIdx, b.size]⟩

namespace Machine

/-! ## The streams (R11) -/

/-- `RxAvail()`: the byte source has a byte to read; no side effect (R58). -/
def rxAvail (s : State) : Bool := !s.rxq.isEmpty

/-- `b <- RxPop()`, then the rest of the operation: the oldest unread byte is removed (R52, R58). -/
def rxPop (s : State) (rest : Byte → State → Result) : Result :=
  match s.rxq with
  | [] => .refused .rxPopEmpty
  | b :: q => rest b (s.setRxq q)

/-- `TxSubmit(f)`: the sink takes the frame at once (R31, R60). -/
def txSubmit (f : PixelBuffer) (s : State) : State := s.setTxlog (s.txlog ++ [f])

/-! ## The decoder operations several rows share -/

/-- DROP: the head byte is removed and its value not used (R122). -/
def discardByte (s : State) : Result := rxPop s fun _ t => .next (t.setPhase .fade)

/-- SOF: the head byte is removed and the marker latched. `b` is the row's field `W[7:0]`, which is that
head byte (R88, R123). -/
def openFrame (b : Byte) (s : State) : Result :=
  rxPop s fun _ t => .next (((t.setSof b).setPcnt payloadLen).setPhase .payload)

/-- PLD: one payload byte is removed, whatever its value; the thirteenth commits the frame (R125). A
count no frame has is refused (D25; spec/93_implementation_defined.md U2). -/
def consumePayload (s : State) : Result :=
  rxPop s fun _ t =>
    if pcntInFrame s.pcnt then
      if s.pcnt = 1 then .next (((t.setPcnt 0).setMask (extract s.sof)).setPhase .fade)
      else .next (t.setPcnt (s.pcnt - 1))
    else .refused .pcntOutOfRange

/-! ## The buffer operations -/

/-- Every channel of every pixel fades (R151). -/
def fadeBuffer (rate : Byte) (b : PixelBuffer) : PixelBuffer := b.map (fadePixel rate)

/-- A lit zone's colour goes into the zone's pixels; an unlit zone writes nothing (R143). -/
def paintZone (mask : BitVec 8) (b : PixelBuffer) (z : Zone) : PixelBuffer :=
  if isLit mask z then b.paint z.lo z.hi z.color else b

/-- The zones in write order, so that a later row would win (R143, R146). -/
def assignZones (zones : List Zone) (mask : BitVec 8) (b : PixelBuffer) : PixelBuffer :=
  zones.foldl (paintZone mask) b

/-- The whole corrected buffer of a raw buffer (R153). -/
def correctBuffer (cfg : Config) (b : PixelBuffer) : PixelBuffer := b.map (correctPixel cfg)

/-! ## Reset and the environment -/

/-- `rst`: every state element takes its reset value; the byte source is untouched (R36, R220, R222).
The configuration and the environment are not the block's to reset. -/
def assertReset (s : State) : State where
  cfg := s.cfg
  mask := s.cfg.resetMask
  raw := s.cfg.resetRaw
  cor := PixelBuffer.fill Pixel.black
  phase := .poll
  pcnt := 0
  sof := 0x00
  rxq := s.rxq
  txlog := []
  rxIdle := s.rxIdle
  inputs := s.inputs

/-- One event of the environment (R63, R177, R220). -/
def applyEvent (s : State) : EnvEvent → State
  | .rx b => s.setRxq (s.rxq ++ [b])
  | .idleLines b => s.setRxIdle b
  | .rst => assertReset s

/-- What the environment does between two operations: the events of the next entry of `inputs`, in
order (R177; notes/assumptions/2.md). -/
def environment (s : State) : State :=
  match s.inputs with
  | [] => s
  | events :: rest => events.foldl applyEvent (s.setInputs rest)

/-- The environment acts after an operation that gave a next state. -/
def thenEnvironment : Result → Result
  | .next t => .next (environment t)
  | .fault r => .fault r
  | .refused r => .refused r

end Machine

end Sys2Proof
end

