-- ==== Sys2Proof/Machine/Decoder.lean ====
section
/-! DEFINITION. The frame decoder operations (spec/41_frame_decoder.md). -/

namespace Sys2Proof.Machine

/-- IDLE: no byte to read; the tick goes on to the render (R121). -/
def execIdle (s : State) : Result := .next (s.setPhase .fade)

/-- DROP of a byte 0x00 to 0x1F (R122). -/
def execDrop00 (s : State) : Result := discardByte s

/-- DROP of a byte 0x20 to 0x2F (R122). -/
def execDrop20 (s : State) : Result := discardByte s

/-- SOF of a marker 0x30 to 0x3F (R123). -/
def execSof30 (b : Byte) (s : State) : Result := openFrame b s

/-- SOF of a marker 0x40 to 0x5F (R123). -/
def execSof40 (b : Byte) (s : State) : Result := openFrame b s

/-- SOF of a marker 0x60 to 0x6F (R123). -/
def execSof60 (b : Byte) (s : State) : Result := openFrame b s

/-- DROP of a byte 0x70 to 0x7F (R122). -/
def execDrop70 (s : State) : Result := discardByte s

/-- DROP of a byte 0x80 to 0xFF (R122). -/
def execDrop80 (s : State) : Result := discardByte s

/-- WAIT: the hold, as a step that changes nothing (R124, R178). -/
def execWait (s : State) : Result := .next s

/-- PLD (R125). -/
def execPld (s : State) : Result := consumePayload s

end Sys2Proof.Machine
end

