-- ==== Sys2Proof/Machine/MainLoop.lean ====
section
/-! DEFINITION. The main loop's operation (spec/44_main_loop.md) and the row of the unreachable phase
code (spec/30_encoding.md R90). -/

namespace Sys2Proof.Machine

/-- DELAY: the idle that ends a tick; it always ends (R172). -/
def execDelay (s : State) : Result := .next (s.setPhase .poll)

/-- ILLEGAL: selects no operation, so a model refuses it (R90, D25, U1). -/
def execIllegal (_s : State) : Result := .refused .illegalPhase

end Sys2Proof.Machine
end

