-- ==== Sys2Proof/Machine/Mapper.lean ====
section
/-! DEFINITION. The light-state mapper's operation (spec/42_light_state_mapper.md). -/

namespace Sys2Proof.Machine

/-- ASSIGN: the colour of every lit zone into its pixels (R143). -/
def execAssign (s : State) : Result :=
  .next ((s.setRaw (assignZones s.cfg.zones s.mask s.raw)).setPhase .correct)

end Sys2Proof.Machine
end

