-- ==== Sys2Proof/Machine/Render.lean ====
section
/-! DEFINITION. The render pipeline operations (spec/43_render_pipeline.md). -/

namespace Sys2Proof.Machine

/-- FADE: every channel of every raw pixel decays (R151). -/
def execFade (s : State) : Result :=
  .next ((s.setRaw (fadeBuffer s.cfg.fadeRate s.raw)).setPhase .assign)

/-- CORRECT: the whole corrected buffer is recomputed from the raw buffer (R153). -/
def execCorrect (s : State) : Result :=
  .next ((s.setCor (correctBuffer s.cfg s.raw)).setPhase .submit)

/-- SUBMIT: the corrected buffer goes to the pixel sink (R154). -/
def execSubmit (s : State) : Result := .next ((txSubmit s.cor s).setPhase .delay)

end Sys2Proof.Machine
end

