-- ==== Sys2Proof/Syntax.lean ====
section
/-! DEFINITION. The operations of the block, one constructor per row of spec/opcode_table.json
(spec/30_encoding.md R89, R91). -/

namespace Sys2Proof

/-- An operation with the byte its dispatch word carries, where the row reads one (R89). -/
inductive Instr where
  /-- IDLE: POLL with nothing to read (R121). -/
  | idle
  /-- DROP.00: POLL, byte 0x00 to 0x1F at the head (R122). -/
  | drop00 (b : Byte)
  /-- DROP.20: POLL, byte 0x20 to 0x2F at the head (R122). -/
  | drop20 (b : Byte)
  /-- SOF.30: POLL, byte 0x30 to 0x3F at the head (R123). -/
  | sof30 (b : Byte)
  /-- SOF.40: POLL, byte 0x40 to 0x5F at the head (R123). -/
  | sof40 (b : Byte)
  /-- SOF.60: POLL, byte 0x60 to 0x6F at the head (R123). -/
  | sof60 (b : Byte)
  /-- DROP.70: POLL, byte 0x70 to 0x7F at the head (R122). -/
  | drop70 (b : Byte)
  /-- DROP.80: POLL, byte 0x80 to 0xFF at the head (R122). -/
  | drop80 (b : Byte)
  /-- WAIT: PAYLOAD with nothing to read (R124). -/
  | wait
  /-- PLD: PAYLOAD with a byte to read (R125). -/
  | pld (p : Byte)
  /-- FADE (R151). -/
  | fade
  /-- ASSIGN (R143). -/
  | assign
  /-- CORRECT (R153). -/
  | correct
  /-- SUBMIT (R154). -/
  | submit
  /-- DELAY (R172). -/
  | delay
  /-- ILLEGAL: the row of the unreachable phase code 0b111 (R90). -/
  | illegal
  deriving DecidableEq, Repr

/-- The row's name in spec/opcode_table.json (R91). -/
def Instr.mnemonic : Instr → String
  | .idle => "IDLE"
  | .drop00 _ => "DROP.00"
  | .drop20 _ => "DROP.20"
  | .sof30 _ => "SOF.30"
  | .sof40 _ => "SOF.40"
  | .sof60 _ => "SOF.60"
  | .drop70 _ => "DROP.70"
  | .drop80 _ => "DROP.80"
  | .wait => "WAIT"
  | .pld _ => "PLD"
  | .fade => "FADE"
  | .assign => "ASSIGN"
  | .correct => "CORRECT"
  | .submit => "SUBMIT"
  | .delay => "DELAY"
  | .illegal => "ILLEGAL"

end Sys2Proof
end

