-- ==== Sys2Proof/Machine/Dispatch.lean ====
section
/-! DEFINITION. The meaning of each operation, one arm per row of spec/opcode_table.json (R89). -/

namespace Sys2Proof.Machine

def exec (i : Instr) (s : State) : Host.Outcome State Fault Refusal :=
  match i with
  | .idle => Sys2Proof.Machine.execIdle s
  | .drop00 _ => Sys2Proof.Machine.execDrop00 s
  | .drop20 _ => Sys2Proof.Machine.execDrop20 s
  | .sof30 b => Sys2Proof.Machine.execSof30 b s
  | .sof40 b => Sys2Proof.Machine.execSof40 b s
  | .sof60 b => Sys2Proof.Machine.execSof60 b s
  | .drop70 _ => Sys2Proof.Machine.execDrop70 s
  | .drop80 _ => Sys2Proof.Machine.execDrop80 s
  | .wait => Sys2Proof.Machine.execWait s
  | .pld _ => Sys2Proof.Machine.execPld s
  | .fade => Sys2Proof.Machine.execFade s
  | .assign => Sys2Proof.Machine.execAssign s
  | .correct => Sys2Proof.Machine.execCorrect s
  | .submit => Sys2Proof.Machine.execSubmit s
  | .delay => Sys2Proof.Machine.execDelay s
  | .illegal => Sys2Proof.Machine.execIllegal s

end Sys2Proof.Machine
end

