-- ==== Sys2Proof/WellFormed.lean ====
section
/-! DEFINITION. Which terms of Instr are operations of the table: the byte of a DROP or SOF row lies in
that row's range (spec/30_encoding.md R85). -/

namespace Sys2Proof

/-- The byte of each POLL row lies in the row's range (R85); every other term is well formed. -/
def Instr.wellFormed : Instr → Bool
  | .drop00 b => decide (b ≤ 0x1F)
  | .drop20 b => decide (0x20 ≤ b) && decide (b ≤ 0x2F)
  | .sof30 b => decide (0x30 ≤ b) && decide (b ≤ 0x3F)
  | .sof40 b => decide (0x40 ≤ b) && decide (b ≤ 0x5F)
  | .sof60 b => decide (0x60 ≤ b) && decide (b ≤ 0x6F)
  | .drop70 b => decide (0x70 ≤ b) && decide (b ≤ 0x7F)
  | .drop80 b => decide (0x80 ≤ b)
  | .idle => true
  | .wait => true
  | .pld _ => true
  | .fade => true
  | .assign => true
  | .correct => true
  | .submit => true
  | .delay => true
  | .illegal => true

end Sys2Proof
end

