-- ==== Sys2Proof/Decode.lean ====
section
/-! DEFINITION. The dispatch word and the operation map (spec/30_encoding.md R88 to R90), as a decoder
and an encoder. -/

namespace Sys2Proof

/-! ## The code of `phase` (R27) -/

/-- The 3-bit code of each value of `phase` (R27). -/
def Phase.code : Phase → BitVec 3
  | .poll => 0b000
  | .payload => 0b001
  | .fade => 0b010
  | .assign => 0b011
  | .correct => 0b100
  | .submit => 0b101
  | .delay => 0b110
  | .unused => 0b111

/-- The value of `phase` with a given code (R27). -/
def Phase.ofCode (c : BitVec 3) : Phase :=
  if c = 0b000 then .poll
  else if c = 0b001 then .payload
  else if c = 0b010 then .fade
  else if c = 0b011 then .assign
  else if c = 0b100 then .correct
  else if c = 0b101 then .submit
  else if c = 0b110 then .delay
  else .unused

/-! ## Fields of the dispatch word (R88) -/

/-- `W[11:9]`. -/
def DispatchWord.phaseBits (w : DispatchWord) : BitVec 3 := w.extractLsb' 9 3

/-- `W[8]`. -/
def DispatchWord.rxAvail (w : DispatchWord) : Bool := w.getLsbD 8

/-- `W[7:0]`. -/
def DispatchWord.rxData (w : DispatchWord) : Byte := w.extractLsb' 0 8

/-- `W = {phase, rx_avail, rx_data}` (R88). -/
def DispatchWord.pack (phase : BitVec 3) (rxAvail : Bool) (rxData : Byte) : DispatchWord :=
  phase ++ BitVec.ofBool rxAvail ++ rxData

/-! ## The operation map (R89) -/

/-- One row of the operation map: it selects `w` when `w &&& mask = pattern`, and `operation` reads the
row's operand out of the word (R89). -/
structure Row where
  mnemonic : String
  pattern : DispatchWord
  mask : DispatchWord
  operation : DispatchWord → Instr

/-- The row selects the word (R89). -/
def Row.selects (row : Row) (w : DispatchWord) : Bool := w &&& row.mask == row.pattern

/-- The sixteen rows of R89, in its order. -/
def operationMap : List Row :=
  [ ⟨"IDLE",    0x000, 0xF00, fun _ => .idle⟩,
    ⟨"DROP.00", 0x100, 0xFE0, fun w => .drop00 w.rxData⟩,
    ⟨"DROP.20", 0x120, 0xFF0, fun w => .drop20 w.rxData⟩,
    ⟨"SOF.30",  0x130, 0xFF0, fun w => .sof30 w.rxData⟩,
    ⟨"SOF.40",  0x140, 0xFE0, fun w => .sof40 w.rxData⟩,
    ⟨"SOF.60",  0x160, 0xFF0, fun w => .sof60 w.rxData⟩,
    ⟨"DROP.70", 0x170, 0xFF0, fun w => .drop70 w.rxData⟩,
    ⟨"DROP.80", 0x180, 0xF80, fun w => .drop80 w.rxData⟩,
    ⟨"WAIT",    0x200, 0xF00, fun _ => .wait⟩,
    ⟨"PLD",     0x300, 0xF00, fun w => .pld w.rxData⟩,
    ⟨"FADE",    0x400, 0xE00, fun _ => .fade⟩,
    ⟨"ASSIGN",  0x600, 0xE00, fun _ => .assign⟩,
    ⟨"CORRECT", 0x800, 0xE00, fun _ => .correct⟩,
    ⟨"SUBMIT",  0xA00, 0xE00, fun _ => .submit⟩,
    ⟨"DELAY",   0xC00, 0xE00, fun _ => .delay⟩,
    ⟨"ILLEGAL", 0xE00, 0xE00, fun _ => .illegal⟩ ]

/-- The operation a dispatch word selects: that of the row that selects it (R89). Every word is
selected by exactly one row, so `none` never comes out (Laws/Decode.lean `decode_isSome`). -/
def decode (w : DispatchWord) : Option Instr :=
  (operationMap.find? (·.selects w)).map (·.operation w)

/-- Why a number is not a dispatch word's encoding. -/
inductive DecodeError where
  /-- The number has a bit above bit 11, and the dispatch word has twelve bits (R88). -/
  | tooWide
  /-- No row of the operation map selects the word (never: R89). -/
  | noRow
  deriving DecidableEq, Repr

/-- Decoding of any number as a dispatch word, rejecting by name. -/
def decodeNat (w : Nat) : Except DecodeError Instr :=
  if w < 2 ^ 12 then
    match decode (BitVec.ofNat 12 w) with
    | some i => .ok i
    | none => .error .noRow
  else .error .tooWide

/-- The host's question to the decoder: the operation selected by the `nbits` low bits of `w`, the
bits above them zero. -/
def decodeTableWord (nbits w : Nat) : Option Instr :=
  match decodeNat (w % 2 ^ nbits) with
  | .ok i => some i
  | .error _ => none

/-! ## The encoder -/

/-- A dispatch word that selects the operation; bits the row does not read are 0 (R89). -/
def encode : Instr → DispatchWord
  | .idle => 0b0000#4 ++ 0#8
  | .drop00 b => 0b0001#4 ++ b
  | .drop20 b => 0b0001#4 ++ b
  | .sof30 b => 0b0001#4 ++ b
  | .sof40 b => 0b0001#4 ++ b
  | .sof60 b => 0b0001#4 ++ b
  | .drop70 b => 0b0001#4 ++ b
  | .drop80 b => 0b0001#4 ++ b
  | .wait => 0b0010#4 ++ 0#8
  | .pld p => 0b0011#4 ++ p
  | .fade => 0b010#3 ++ 0#9
  | .assign => 0b011#3 ++ 0#9
  | .correct => 0b100#3 ++ 0#9
  | .submit => 0b101#3 ++ 0#9
  | .delay => 0b110#3 ++ 0#9
  | .illegal => 0b111#3 ++ 0#9

end Sys2Proof
end

