-- ==== Sys2Proof/Machine/Ports.lean ====
section
/-! DEFINITION. The block's ports (spec/60_exceptions.md R202, R203; spec/20_memory.md R54), and the
sampling of the dispatch word from them (spec/30_encoding.md R88). -/

namespace Sys2Proof.Machine

/-! ## Inputs -/

/-- Port `rx_data`: the oldest unread byte, or the undefined lines when there is none (R202). -/
def rxData (s : State) : Byte := s.rxq.headD s.rxIdle

/-- The dispatch word `W = {phase, rx_avail, rx_data}` (R88). -/
def dispatchWord (s : State) : DispatchWord :=
  DispatchWord.pack s.phase.code (rxAvail s) (rxData s)

/-- The operation the dispatch word selects (R88, R89). -/
def selected (s : State) : Option Instr := decode (dispatchWord s)

/-- The state `s` with its dispatch word made `w` (notes/assumptions/8.md): the phase, the head of `rxq`
or an empty `rxq` with its undefined lines, and, in PAYLOAD, a count a frame can have (R28, as SOF leaves
it) where there is none. -/
def placeDispatchWord (s : State) (w : DispatchWord) : State :=
  let phase := Phase.ofCode w.phaseBits
  let t := s.setPhase phase
  let t := if phase = .payload ∧ pcntInFrame s.pcnt = false then t.setPcnt payloadLen else t
  if w.rxAvail then t.setRxq (w.rxData :: s.rxq.tail)
  else (t.setRxq []).setRxIdle w.rxData

/-! ## Outputs -/

/-- Port `rx_pop`: asserted by DROP, SOF and PLD (R202). -/
def rxPopPort : Instr → Bool
  | .drop00 _ => true
  | .drop20 _ => true
  | .sof30 _ => true
  | .sof40 _ => true
  | .sof60 _ => true
  | .drop70 _ => true
  | .drop80 _ => true
  | .pld _ => true
  | .idle => false
  | .wait => false
  | .fade => false
  | .assign => false
  | .correct => false
  | .submit => false
  | .delay => false
  | .illegal => false

/-- Port `tx_submit`: asserted by SUBMIT (R203). -/
def txSubmitPort : Instr → Bool
  | .submit => true
  | .idle => false
  | .drop00 _ => false
  | .drop20 _ => false
  | .sof30 _ => false
  | .sof40 _ => false
  | .sof60 _ => false
  | .drop70 _ => false
  | .drop80 _ => false
  | .wait => false
  | .pld _ => false
  | .fade => false
  | .assign => false
  | .correct => false
  | .delay => false
  | .illegal => false

/-- A pixel as a 24-bit word `{r, g, b}`, `r` in bits 23:16 (R54, D4). -/
def packPixel (p : Pixel) : BitVec 24 := p.r ++ p.g ++ p.b

/-- A frame as 1440 bits, pixel 0 in the most significant position (R54, D4). -/
def packFrame (f : PixelBuffer) : BitVec 1440 :=
  BitVec.ofNat 1440 (f.pixels.foldl (fun acc p => acc * 2 ^ 24 + (packPixel p).toNat) 0)

/-- Port `tx_frame`: the 60 pixels of `cor` (R203). -/
def txFrame (s : State) : BitVec 1440 := packFrame s.cor

end Sys2Proof.Machine
end

