-- ==== Sys2Proof/Machine/Step.lean ====
section
/-! DEFINITION. One step: the operation the dispatch word selects (spec/30_encoding.md R88, R89), then
what the environment does before the next one (spec/44_main_loop.md R177). -/

namespace Sys2Proof.Machine

/-- One operation of the block, then the environment (R7, R177). -/
def step (s : State) : Host.Outcome State Fault Refusal :=
  match selected s with
  | some i => thenEnvironment (exec i s)
  | none => .refused .noRow

/-- `s` with the dispatch word whose `nbits` low bits are `w` placed where the next step samples it. -/
def State.withFetchWord (s : State) (nbits w : Nat) : State :=
  placeDispatchWord s (BitVec.ofNat 12 (w % 2 ^ nbits))

end Sys2Proof.Machine
end

