-- ==== Sys2Proof/Machine/Tick.lean ====
section
/-! DEFINITION. The pseudo-operations and the tick as a function (spec/30_encoding.md R93,
spec/41_frame_decoder.md R126, spec/43_render_pipeline.md R157, spec/44_main_loop.md R174), beside the
operation-level steps that `step` takes. -/

namespace Sys2Proof.Machine

/-- `FRAME m`: the bytes of a well-formed frame with an empty payload (R93). -/
def frameBytes (m : BitVec 8) : List Byte := (markerLo + m) :: List.replicate 13 0x00

/-- The decode of one tick on the bytes the source supplies: the new mask and how many bytes are
consumed; `none` while a frame is incomplete (R126). -/
def decodeOfTick (mask : BitVec 8) (q : List Byte) : Option (BitVec 8 × Nat) :=
  match q with
  | [] => some (mask, 0)
  | b :: rest =>
    if isMarker b = false then some (mask, 1)
    else if rest.length < 13 then none
    else some (b - markerLo, frameLen)

/-- The raw pixel `i` after the render of a tick: the zone's colour if it is lit, else the faded old
value (R157). -/
def renderedPixel (cfg : Config) (mask : BitVec 8) (i : PixelIndex) (p : Pixel) : Pixel :=
  if isLit mask (cfg.zoneOf i) then (cfg.zoneOf i).color else fadePixel cfg.fadeRate p

/-- RENDER: FADE, ASSIGN, CORRECT, SUBMIT (R93, R157). -/
def renderOfTick (s : State) : State :=
  let raw := assignZones s.cfg.zones s.mask (fadeBuffer s.cfg.fadeRate s.raw)
  let cor := correctBuffer s.cfg raw
  txSubmit cor ((s.setRaw raw).setCor cor)

/-- The byte an event appends to the receive stream, if it is one that does (R30). -/
def arrivingByte : EnvEvent → Option Byte
  | .rx b => some b
  | .idleLines _ => none
  | .rst => none

/-- The bytes that arrive over some steps, in order (R63). -/
def arrivals (inputs : List (List EnvEvent)) : List Byte := inputs.flatten.filterMap arrivingByte

/-- Over some steps `rst` is not asserted. -/
def noReset (inputs : List (List EnvEvent)) : Bool := inputs.flatten.all (· != .rst)

end Sys2Proof.Machine
end

