-- ==== Sys2Proof/Safety.lean ====
section
/-! DEFINITION. What counts as a safe state and a stalled one, in the terms the claims use
(spec/10_state.md R37, spec/44_main_loop.md R178). -/

namespace Sys2Proof.Machine

/-- The sequencer's part of the invariant: the phase is one of the seven; a payload count is held exactly
in PAYLOAD; a marker is latched there (R37(a), (b), (c)). -/
abbrev State.SequencerInv (s : State) : Prop :=
  s.phase ≠ .unused ∧
  (s.phase = .payload ↔ 1 ≤ s.pcnt.toNat ∧ s.pcnt.toNat ≤ 13) ∧
  (s.phase ≠ .payload → s.pcnt = 0) ∧
  (s.phase = .payload → isMarker s.sof = true)

/-- The mask has no reserved bit set, nor has the value a reset gives it (R37(d)). -/
abbrev State.MaskInv (s : State) : Prop :=
  s.mask.toNat ≤ 0x3F ∧ s.cfg.resetMask.toNat ≤ 0x3F

/-- The block has no enabled operation: PAYLOAD with nothing to read (R178). -/
abbrev State.Stalled (s : State) : Prop := s.phase = .payload ∧ s.rxq = []

/-- `k` steps, stopping at the first that answers no next state. -/
def steps : Nat → State → Result
  | 0, s => .next s
  | k + 1, s =>
    match step s with
    | .next t => steps k t
    | .fault r => .fault r
    | .refused r => .refused r

end Sys2Proof.Machine
end

