-- ==== Sys2Proof/Certificates/Slice0/Obligations.lean ====
section
/-! DEFINITION. The statements for the provers. A docstring cites the rules a statement formalises; a
statement that rests on a decision or a derivation the spec marks as its own, or on a choice of this
model, names it. -/

open Sys2Proof Sys2Proof.Machine

/-! ## Encoding -/

/-- Decoding the encoding of a well-formed operation gives it back (R89; the dispatch word is the spec's
decision D18). -/
def Obligations.DecodeAfterEncode : Prop :=
  ∀ i : Instr, i.wellFormed = true → decode (encode i) = some i

/-- The operation map has sixteen rows and exactly one selects any dispatch word (R89, marked derived
there). -/
def Obligations.OneRowPerDispatchWord : Prop :=
  operationMap.length = 16 ∧
  ∀ w : DispatchWord, (operationMap.filter (·.selects w)).length = 1

/-- Words written out from the patterns of R89 decode to the operations of
spec/95_test_vectors.md section 2.1. -/
def Obligations.SpecWordsDecode : Prop :=
  decode 0b000000000000 = some .idle ∧
  decode 0b000100001010 = some (.drop00 0x0A) ∧
  decode 0b000100101111 = some (.drop20 0x2F) ∧
  decode 0b000100110000 = some (.sof30 0x30) ∧
  decode 0b000101000001 = some (.sof40 0x41) ∧
  decode 0b000101101111 = some (.sof60 0x6F) ∧
  decode 0b000101110000 = some (.drop70 0x70) ∧
  decode 0b000111111111 = some (.drop80 0xFF) ∧
  decode 0b001011111111 = some .wait ∧
  decode 0b001101000001 = some (.pld 0x41) ∧
  decode 0b010111111111 = some .fade ∧
  decode 0b011000000000 = some .assign ∧
  decode 0b100000000000 = some .correct ∧
  decode 0b101000000000 = some .submit ∧
  decode 0b110000000000 = some .delay ∧
  decode 0b111000000000 = some .illegal

/-- Every dispatch word decodes to a well-formed operation whose own row selects both the word and the
operation's encoding (R85, R89, marked derived there). -/
def Obligations.EveryWordDecodesInItsRow : Prop :=
  ∀ w : DispatchWord, ∃ i, decode w = some i ∧ i.wellFormed = true ∧
    ∃ row ∈ operationMap, row.mnemonic = i.mnemonic ∧
      row.selects w = true ∧ row.selects (encode i) = true

/-- R82: the unsigned range, its size, and the same class under a signed reading. -/
def Obligations.MarkerRange : Prop :=
  (∀ b : Byte, isMarker b = true ↔ 0x30 ≤ b.toNat ∧ b.toNat ≤ 0x6F) ∧
  ((List.range 256).filter fun n => isMarker (BitVec.ofNat 8 n)).length = 64 ∧
  ((List.range 256).filter fun n => !isMarker (BitVec.ofNat 8 n)).length = 192 ∧
  (∀ b : Byte, b.getLsbD 7 = true → isMarker b = false) ∧
  (∀ b : Byte, isMarker b = true ↔ 0x30 ≤ b.toInt ∧ b.toInt ≤ 0x6F)

/-- R83 and R84 (the latter marked derived): of a marker, `extract` is `b - 0x30`, at most 0x3F, and has
the gate-level form. -/
def Obligations.ExtractionGateForm : Prop :=
  ∀ b : Byte, isMarker b = true →
    (extract b).toNat = b.toNat - 0x30 ∧ (extract b).toNat ≤ 0x3F ∧
    extract b = extractGates b ∧
    (∀ k < 4, (extract b).getLsbD k = b.getLsbD k) ∧
    (extract b).getLsbD 4 = !b.getLsbD 4 ∧
    (extract b).getLsbD 5 = (b.getLsbD 6 && (b.getLsbD 5 || b.getLsbD 4)) ∧
    (extract b).getLsbD 6 = false ∧ (extract b).getLsbD 7 = false

/-- The markers that light one zone alone (R81, its last column marked derived), and the two markers of
conflict C2. -/
def Obligations.MarkersOfSingleZones : Prop :=
  let fields := fun m => (maskUL m, maskUR m, maskLL m, maskLR m, maskBL m, maskBR m)
  fields (extract 0x31) = (true, false, false, false, false, false) ∧
  fields (extract 0x32) = (false, true, false, false, false, false) ∧
  fields (extract 0x34) = (false, false, true, false, false, false) ∧
  fields (extract 0x38) = (false, false, false, true, false, false) ∧
  fields (extract 0x40) = (false, false, false, false, true, false) ∧
  fields (extract 0x50) = (false, false, false, false, false, true) ∧
  fields (extract 0x30) = (false, false, false, false, false, false) ∧
  fields (extract 0x39) = (true, false, false, true, false, false) ∧
  fields (extract 0x41) = (true, false, false, false, true, false)

/-! ## The step -/

/-- A step runs the operation its dispatch word decodes to, and the environment acts after an operation
that gave a next state (R7, R88; the environment's place in a step is log 2); a refusal stops the step,
and there is no fault (R209). -/
def Obligations.StepRunsSelectedOperation : Prop :=
  ∀ (s : State) (i : Instr), decode (dispatchWord s) = some i →
    (∀ t, exec i s = .next t → step s = .next (environment t)) ∧
    (∀ r, exec i s = .refused r → step s = .refused r) ∧
    IsEmpty Fault

/-- The dispatch word holds the phase code, `RxAvail()` and the head of the stream (R88, resting on
decision D18); with nothing to read the data bits decide nothing; no event of the environment changes an
offered byte (the events are those of log 2). -/
def Obligations.DispatchWordSamplesPorts : Prop :=
  (∀ s : State, (dispatchWord s).phaseBits = s.phase.code ∧
    ((dispatchWord s).rxAvail = true ↔ s.rxq ≠ []) ∧
    (∀ b q, s.rxq = b :: q → (dispatchWord s).rxData = b)) ∧
  (∀ (p : BitVec 3) (d d' : Byte),
    decode (DispatchWord.pack p false d) = decode (DispatchWord.pack p false d')) ∧
  (∀ (s : State) (e : EnvEvent) (b : Byte) (q : List Byte), s.rxq = b :: q →
    ∃ q', (applyEvent s e).rxq = b :: q')

/-- Between two operations the environment performs the events of one entry of `inputs`, in order: a byte
is appended to the stream, the idle lines change, or `rst` acts (R30, R63, R177, R220). The list is the
model's own (log 2), and so are the idle lines as a field (log 6). -/
def Obligations.EnvironmentActsBetweenOperations : Prop :=
  (∀ s : State, s.inputs = [] → environment s = s) ∧
  (∀ (s : State) (rest : List (List EnvEvent)), s.inputs = [] :: rest →
    environment s = { s with inputs := rest }) ∧
  (∀ (s : State) (e : EnvEvent) (es : List EnvEvent) (rest : List (List EnvEvent)),
    s.inputs = (e :: es) :: rest →
    environment s = environment { applyEvent s e with inputs := es :: rest }) ∧
  (∀ (s : State) (b : Byte), applyEvent s (.rx b) = { s with rxq := s.rxq ++ [b] }) ∧
  (∀ (s : State) (b : Byte), applyEvent s (.idleLines b) = { s with rxIdle := b }) ∧
  (∀ s : State, applyEvent s .rst = assertReset s)

/-- The eleven rows of R171. The row `pcnt >= 2` is stated up to 13, the most a frame has (R28). That WAIT,
the fourth row, answers a next state is the model's choice of the two renderings R124 allows (log 11): in
R178 it is selected and not enabled. -/
def Obligations.PhaseTransitionTable : Prop :=
  ∀ s : State,
    (s.phase = .poll → s.rxq = [] →
      selected s = some .idle ∧ ∃ t, exec .idle s = .next t ∧ t.phase = .fade) ∧
    (∀ b q, s.phase = .poll → s.rxq = b :: q → isMarker b = false →
      ∃ i t, (i = .drop00 b ∨ i = .drop20 b ∨ i = .drop70 b ∨ i = .drop80 b) ∧
        selected s = some i ∧ exec i s = .next t ∧ t.phase = .fade) ∧
    (∀ b q, s.phase = .poll → s.rxq = b :: q → isMarker b = true →
      ∃ i t, (i = .sof30 b ∨ i = .sof40 b ∨ i = .sof60 b) ∧
        selected s = some i ∧ exec i s = .next t ∧ t.phase = .payload) ∧
    (s.phase = .payload → s.rxq = [] →
      selected s = some .wait ∧ ∃ t, exec .wait s = .next t ∧ t.phase = .payload) ∧
    (∀ p q, s.phase = .payload → s.rxq = p :: q → 2 ≤ s.pcnt.toNat → s.pcnt.toNat ≤ 13 →
      selected s = some (.pld p) ∧ ∃ t, exec (.pld p) s = .next t ∧ t.phase = .payload) ∧
    (∀ p q, s.phase = .payload → s.rxq = p :: q → s.pcnt.toNat = 1 →
      selected s = some (.pld p) ∧ ∃ t, exec (.pld p) s = .next t ∧ t.phase = .fade) ∧
    (s.phase = .fade →
      selected s = some .fade ∧ ∃ t, exec .fade s = .next t ∧ t.phase = .assign) ∧
    (s.phase = .assign →
      selected s = some .assign ∧ ∃ t, exec .assign s = .next t ∧ t.phase = .correct) ∧
    (s.phase = .correct →
      selected s = some .correct ∧ ∃ t, exec .correct s = .next t ∧ t.phase = .submit) ∧
    (s.phase = .submit →
      selected s = some .submit ∧ ∃ t, exec .submit s = .next t ∧ t.phase = .delay) ∧
    (s.phase = .delay →
      selected s = some .delay ∧ ∃ t, exec .delay s = .next t ∧ t.phase = .poll)

/-! ## The decoder's operations -/

/-- R121: when IDLE is selected, its result, and that a byte arriving just after the sample waits. The
list `inputs`, by which that byte arrives in the third clause, is the model's own (log 2). -/
def Obligations.IdleGoesToRender : Prop :=
  (∀ s : State, s.phase = .poll → s.rxq = [] → selected s = some .idle) ∧
  (∀ s : State, exec .idle s = .next { s with phase := .fade }) ∧
  (∀ (s : State) (b : Byte) (rest : List (List EnvEvent)),
    s.phase = .poll → s.rxq = [] → s.inputs = [.rx b] :: rest →
    step s = .next { s with phase := .fade, rxq := [b], inputs := rest })

/-- R122: when DROP is selected, and its result for the four rows: one byte, whatever its value. -/
def Obligations.DropDiscardsOneByte : Prop :=
  (∀ (s : State) (b : Byte) (q : List Byte), s.phase = .poll → s.rxq = b :: q → isMarker b = false →
    selected s = some (.drop00 b) ∨ selected s = some (.drop20 b) ∨
    selected s = some (.drop70 b) ∨ selected s = some (.drop80 b)) ∧
  (∀ (s : State) (c b : Byte) (q : List Byte), s.rxq = b :: q →
    exec (.drop00 c) s = .next { s with rxq := q, phase := .fade } ∧
    exec (.drop20 c) s = .next { s with rxq := q, phase := .fade } ∧
    exec (.drop70 c) s = .next { s with rxq := q, phase := .fade } ∧
    exec (.drop80 c) s = .next { s with rxq := q, phase := .fade })

/-- R123: when SOF is selected, that its operand is then the head byte and a marker, and its result for
the three rows. `mask` is not written. That SOF latches its operand, also one that is not the popped byte,
is the model's choice (log 9); the second clause says that the two are one byte whenever SOF is selected. -/
def Obligations.SofOpensFrame : Prop :=
  (∀ (s : State) (b : Byte) (q : List Byte), s.phase = .poll → s.rxq = b :: q → isMarker b = true →
    selected s = some (.sof30 b) ∨ selected s = some (.sof40 b) ∨ selected s = some (.sof60 b)) ∧
  (∀ (s : State) (m : Byte),
    selected s = some (.sof30 m) ∨ selected s = some (.sof40 m) ∨ selected s = some (.sof60 m) →
    isMarker m = true ∧ ∃ q, s.rxq = m :: q) ∧
  (∀ (s : State) (m b : Byte) (q : List Byte), s.rxq = b :: q →
    exec (.sof30 m) s = .next { s with rxq := q, sof := m, pcnt := 13, phase := .payload } ∧
    exec (.sof40 m) s = .next { s with rxq := q, sof := m, pcnt := 13, phase := .payload } ∧
    exec (.sof60 m) s = .next { s with rxq := q, sof := m, pcnt := 13, phase := .payload })

/-- R124: when WAIT is selected, that it writes nothing, that the hold goes on while the environment does
nothing, and that a byte lifts it. That the hold is a step to the same state, where R124 also allows the
absence of a step, is the model's choice (log 11), and so is the list `inputs` by which a byte arrives
(log 2). -/
def Obligations.WaitHolds : Prop :=
  (∀ s : State, s.Stalled → selected s = some .wait) ∧
  (∀ s : State, exec .wait s = .next s) ∧
  (∀ s : State, s.Stalled → s.inputs = [] → step s = .next s) ∧
  (∀ (s : State) (b : Byte) (rest : List (List EnvEvent)), s.Stalled → s.inputs = [.rx b] :: rest →
    step s = .next { s with rxq := [b], inputs := rest } ∧
    selected { s with rxq := [b], inputs := rest } = some (.pld b))

/-- R125: when PLD is selected and its result, for the last payload byte and for another. The committed
value is R83's for every marker. -/
def Obligations.PldConsumesOnePayloadByte : Prop :=
  (∀ (s : State) (p : Byte) (q : List Byte), s.phase = .payload → s.rxq = p :: q →
    selected s = some (.pld p)) ∧
  (∀ (s : State) (p b : Byte) (q : List Byte), s.rxq = b :: q → s.pcnt.toNat = 1 →
    exec (.pld p) s =
      .next { s with rxq := q, pcnt := 0, mask := extract s.sof, phase := .fade }) ∧
  (∀ b : Byte, isMarker b = true → (extract b).toNat = b.toNat - 0x30) ∧
  (∀ (s : State) (p b : Byte) (q : List Byte), s.rxq = b :: q →
    2 ≤ s.pcnt.toNat → s.pcnt.toNat ≤ 13 →
    exec (.pld p) s = .next { s with rxq := q, pcnt := BitVec.ofNat 4 (s.pcnt.toNat - 1) })

/-- PLD refuses a count that no frame has (decision D25; spec/93_implementation_defined.md U2;
log 7). -/
def Obligations.PldRefusesImpossibleCount : Prop :=
  ∀ (s : State) (p b : Byte) (q : List Byte), s.rxq = b :: q →
    (s.pcnt.toNat = 0 ∨ 13 < s.pcnt.toNat) → exec (.pld p) s = .refused .pcntOutOfRange

/-- `RxPop()` is defined only when there is a byte (R11), which leaves open what a pop without one does.
That the eight popping rows then refuse is the model's choice (log 10); the step never selects one of them
on an empty stream (R89). -/
def Obligations.PopOfEmptyStreamRefused : Prop :=
  (∀ (s : State) (b : Byte), s.rxq = [] →
    ∀ i ∈ [Instr.drop00 b, .drop20 b, .drop70 b, .drop80 b, .sof30 b, .sof40 b, .sof60 b, .pld b],
      exec i s = .refused .rxPopEmpty) ∧
  (∀ (s : State) (i : Instr), selected s = some i → rxPopPort i = true → s.rxq ≠ [])

/-- The phase code 0b111 selects no operation, is refused, and is written by no operation and no reset
(R90, resting on decision D25). -/
def Obligations.UnusedPhaseRefused : Prop :=
  (∀ w : DispatchWord, w.phaseBits = 0b111 → decode w = some .illegal) ∧
  (∀ s : State, exec .illegal s = .refused .illegalPhase) ∧
  (∀ s : State, s.phase = .unused → step s = .refused .illegalPhase) ∧
  (∀ (i : Instr) (s t : State), exec i s = .next t → s.phase ≠ .unused → t.phase ≠ .unused) ∧
  (∀ s : State, (assertReset s).phase = .poll)

/-! ## The render operations -/

/-- R151 (its expression is decision D11): FADE gives every channel of every raw pixel
`floor(c * (256 - FADE_RATE) / 256)` and writes `raw` and `phase` only. -/
def Obligations.FadeDecaysEveryChannel : Prop :=
  ∀ s : State, (s.phase = .fade → selected s = some .fade) ∧
    ∃ raw', exec .fade s = .next { s with raw := raw', phase := .assign } ∧
      ∀ i : PixelIndex,
        (raw'.get i).r.toNat = (s.raw.get i).r.toNat * (256 - s.cfg.fadeRate.toNat) / 256 ∧
        (raw'.get i).g.toNat = (s.raw.get i).g.toNat * (256 - s.cfg.fadeRate.toNat) / 256 ∧
        (raw'.get i).b.toNat = (s.raw.get i).b.toNat * (256 - s.cfg.fadeRate.toNat) / 256

/-- R152 (a) to (e) and (g), for every legal rate (marked derived there). -/
def Obligations.FadeLaws : Prop :=
  ∀ rate : Byte, 1 ≤ rate.toNat →
    fadeChannel rate 0 = 0 ∧
    (∀ c : Channel, (fadeChannel rate c).toNat ≤ c.toNat) ∧
    (∀ c : Channel, 1 ≤ c.toNat → (fadeChannel rate c).toNat + 1 ≤ c.toNat) ∧
    (∀ (n : Nat) (c : Channel), c.toNat ≤ n → (fadeChannel rate)^[n] c = 0) ∧
    (∀ c : Channel, (fadeChannel rate)^[255] c = 0) ∧
    (∀ c d : Channel, c.toNat ≤ d.toNat → (fadeChannel rate c).toNat ≤ (fadeChannel rate d).toNat) ∧
    (∀ c : Channel, (fadeChannel rate c).toNat ≤ 254)

/-- The reference rate 64 (decision D12, log 1): `floor(3c/4)`, black after 17 steps from any channel and not
after 16 from 255 (R152). -/
def Obligations.ReferenceFadeSteps : Prop :=
  (∀ c : Channel, (fadeChannel Config.reference.fadeRate c).toNat = 3 * c.toNat / 4) ∧
  (∀ c : Channel, (fadeChannel Config.reference.fadeRate)^[17] c = 0) ∧
  (fadeChannel Config.reference.fadeRate)^[16] 255 = 1

/-- R143: ASSIGN gives every pixel of a lit zone the zone's colour, leaves every pixel of an unlit zone,
and writes `raw` and `phase` only. -/
def Obligations.AssignPaintsLitZones : Prop :=
  ∀ s : State, (s.phase = .assign → selected s = some .assign) ∧
    ∃ raw', exec .assign s = .next { s with raw := raw', phase := .correct } ∧
      ∀ z ∈ s.cfg.zones, ∀ i : PixelIndex, z.lo ≤ i.val → i.val < z.hi →
        raw'.get i = if s.mask.getLsbD z.bit = true then z.color else s.raw.get i

/-- R145: two masks that agree in bits 5:0 have the same effect. -/
def Obligations.AssignIgnoresReservedBits : Prop :=
  ∀ (s : State) (m : BitVec 8), (∀ k < 6, m.getLsbD k = s.mask.getLsbD k) →
    ∃ t, exec .assign s = .next t ∧ exec .assign { s with mask := m } = .next { t with mask := m }

/-- R146: the zones of a legal configuration may be written in any order. -/
def Obligations.ZoneOrderImmaterial : Prop :=
  ∀ (cfg : Config) (zones : List Zone), zones.Perm cfg.zones →
    ∀ (mask : BitVec 8) (b : PixelBuffer), assignZones zones mask b = assignZones cfg.zones mask b

/-- R142: every pixel lies in exactly one zone, its `zone_of`; this function is onto the six rows; every
bit number is in exactly one row; in the reference table `zone_of(i)` is row `floor(i / 10)`. -/
def Obligations.ZonesPartitionStrip : Prop :=
  (∀ cfg : Config, cfg.zones.length = 6 ∧ ∀ z ∈ cfg.zones, ∃ i : PixelIndex, cfg.zoneOf i = z) ∧
  (∀ (cfg : Config) (i : PixelIndex),
    cfg.zoneOf i ∈ cfg.zones ∧ (cfg.zoneOf i).lo ≤ i.val ∧ i.val < (cfg.zoneOf i).hi ∧
    ∀ z ∈ cfg.zones, z.lo ≤ i.val → i.val < z.hi → z = cfg.zoneOf i) ∧
  (∀ (cfg : Config) (k : Fin nZones), ∃ z ∈ cfg.zones, z.bit = k ∧
    ∀ z' ∈ cfg.zones, z'.bit = k → z' = z) ∧
  (∀ i : PixelIndex, Config.reference.zones[i.val / 10]? = some (Config.reference.zoneOf i))

/-- R153: CORRECT recomputes every entry of `cor` from `raw` through the one table and writes `cor` and
`phase` only; the old `cor` plays no part. -/
def Obligations.CorrectRecomputesBuffer : Prop :=
  ∀ s : State, (s.phase = .correct → selected s = some .correct) ∧
    ∃ cor', exec .correct s = .next { s with cor := cor', phase := .submit } ∧
      (∀ i : PixelIndex,
        s.cfg.gamma[(s.raw.get i).r.toNat]? = some (cor'.get i).r ∧
        s.cfg.gamma[(s.raw.get i).g.toNat]? = some (cor'.get i).g ∧
        s.cfg.gamma[(s.raw.get i).b.toNat]? = some (cor'.get i).b) ∧
      ∀ c : PixelBuffer, exec .correct { s with cor := c } =
        .next { s with cor := cor', phase := .submit }

/-- R111: every legal table has an entry for each input, never decreases, and runs from 0 to 255. -/
def Obligations.GammaOfEveryLegalTable : Prop :=
  ∀ cfg : Config,
    cfg.gamma.length = 256 ∧
    (∀ v : Channel, cfg.gamma[v.toNat]? = some (cfg.gammaAt v)) ∧
    (∀ v : Channel, (cfg.gammaAt v).toNat ≤ 255) ∧
    (∀ v w : Channel, v.toNat ≤ w.toNat → (cfg.gammaAt v).toNat ≤ (cfg.gammaAt w).toNat) ∧
    cfg.gammaAt 0 = 0 ∧ cfg.gammaAt 255 = 255

/-- The reference table (decision D13, log 1): entry `v` is `floor((v / 255)^2.8 * 255 + 0.5)`, here with the
fifth power taken on both sides: `g - 1/2 <= (v/255)^(14/5) * 255 < g + 1/2`. -/
def Obligations.ReferenceGammaIsPowerLaw : Prop :=
  ∀ v : Channel, let g := (Config.reference.gammaAt v).toNat
    (2 * g - 1) ^ 5 * 255 ^ 9 ≤ 32 * v.toNat ^ 14 ∧
    32 * v.toNat ^ 14 < (2 * g + 1) ^ 5 * 255 ^ 9

/-- R113 (marked derived there), of the reference table (decision D13, log 1). -/
def Obligations.ReferenceGammaFacts : Prop :=
  (∀ v : Channel, v.toNat ≤ 27 → Config.reference.gammaAt v = 0) ∧
  Config.reference.gammaAt 28 = 1 ∧
  Config.reference.gamma.dedup.length = 163 ∧
  (∀ v : Channel, (Config.reference.gammaAt v).toNat ≤ v.toNat ∧
    (Config.reference.gammaAt v = v ↔ v = 0 ∨ v = 255)) ∧
  (∃ v w : Channel, v ≠ w ∧ Config.reference.gammaAt v = Config.reference.gammaAt w) ∧
  [64, 96, 128, 143, 191, 254].map Config.reference.gammaAt = [5, 17, 37, 50, 114, 252]

/-- R154: SUBMIT appends `cor` to the sink's frames and writes `phase`; nothing else changes. -/
def Obligations.SubmitAppendsCorrected : Prop :=
  ∀ s : State, (s.phase = .submit → selected s = some .submit) ∧
    exec .submit s = .next { s with txlog := s.txlog ++ [s.cor], phase := .delay } ∧
    s.cor.pixels.length = 60

/-- R172: DELAY only goes back to POLL. -/
def Obligations.DelayReturnsToPoll : Prop :=
  ∀ s : State, (s.phase = .delay → selected s = some .delay) ∧
    exec .delay s = .next { s with phase := .poll }

/-! ## Who writes and reads what -/

/-- R25: the PLD that consumes the thirteenth payload byte writes `mask`, all of it, and nothing else
does; only ASSIGN reads it; nothing outside writes it but a restart. -/
def Obligations.MaskWrittenOnlyByCommit : Prop :=
  (∀ (p : Byte) (s t : State), exec (.pld p) s = .next t → s.pcnt.toNat = 1 → t.mask = extract s.sof) ∧
  (∀ (i : Instr) (s t : State), exec i s = .next t → ¬ ((∃ p, i = .pld p) ∧ s.pcnt.toNat = 1) →
    t.mask = s.mask) ∧
  (∀ (i : Instr) (s t : State) (m : BitVec 8), exec i s = .next t → i ≠ .assign →
    ∃ m', exec i { s with mask := m } = .next { t with mask := m' }) ∧
  (∀ (s : State) (e : EnvEvent), e ≠ .rst → (applyEvent s e).mask = s.mask)

/-- R22: `raw` is written by FADE and ASSIGN, read by FADE and CORRECT (and kept by ASSIGN where a zone is
unlit), and touched by no other operation. -/
def Obligations.RawTouchedOnlyByRender : Prop :=
  (∀ (i : Instr) (s t : State), exec i s = .next t → i ≠ .fade → i ≠ .assign → t.raw = s.raw) ∧
  (∀ (i : Instr) (s t : State) (r : PixelBuffer), exec i s = .next t →
    i ≠ .fade → i ≠ .assign → i ≠ .correct → exec i { s with raw := r } = .next { t with raw := r })

/-- R23: `cor` is written only by CORRECT and read only by SUBMIT; no other state depends on it. -/
def Obligations.CorFeedsOnlyTheSink : Prop :=
  (∀ (i : Instr) (s t : State), exec i s = .next t → i ≠ .correct → t.cor = s.cor) ∧
  (∀ (i : Instr) (s t : State) (c : PixelBuffer), exec i s = .next t → i ≠ .submit → i ≠ .correct →
    exec i { s with cor := c } = .next { t with cor := c }) ∧
  (∀ (s t : State) (c : PixelBuffer), exec .correct s = .next t →
    exec .correct { s with cor := c } = .next t) ∧
  (∀ (s t : State) (c : PixelBuffer), exec .submit s = .next t →
    exec .submit { s with cor := c } = .next { t with cor := c, txlog := s.txlog ++ [c] })

/-- Only SUBMIT, which alone asserts `tx_submit`, appends to the sink's frames, one a time, and no
operation reads them (spec/10_state.md section 5, spec/60_exceptions.md section 7). -/
def Obligations.OutputOnlyBySubmit : Prop :=
  (∀ i : Instr, txSubmitPort i = true ↔ i = .submit) ∧
  (∀ (i : Instr) (s t : State), exec i s = .next t →
    t.txlog = if txSubmitPort i = true then s.txlog ++ [s.cor] else s.txlog) ∧
  (∀ (i : Instr) (s t : State) (l : List PixelBuffer), exec i s = .next t →
    ∃ l', exec i { s with txlog := l } = .next { t with txlog := l' })

/-- The receive stream is read head first, one byte by each operation that asserts `rx_pop` and none by
another (spec/20_memory.md sections 2 and 4, spec/60_exceptions.md section 7). -/
def Obligations.StreamReadHeadFirst : Prop :=
  ∀ (i : Instr) (s t : State), exec i s = .next t →
    if rxPopPort i = true then ∃ b, s.rxq = b :: t.rxq else t.rxq = s.rxq

/-- No step writes the configuration, whatever the environment does (spec/20_memory.md section 6: the
tables cannot be written at run time). That it stands in State is the model's choice (log 1), and so is the
environment's part of a step (log 2). -/
def Obligations.ConfigurationNeverWritten : Prop :=
  ∀ s t : State, step s = .next t → t.cfg = s.cfg

/-- The values of payload bytes reach no state: two streams that differ in the payload byte a step
consumes lead to the same state (spec/10_state.md section 5; spec/30_encoding.md section 3). The
environment's part of a step is the model's choice (log 2). -/
def Obligations.PayloadValuesHaveNoEffect : Prop :=
  ∀ (s : State) (p p' : Byte) (q : List Byte), s.phase = .payload →
    step { s with rxq := p :: q } = step { s with rxq := p' :: q }

/-- Outside PAYLOAD the value of `sof` has no effect on any later state but itself, and a step into
PAYLOAD overwrites it (spec/10_state.md section 4, marked derived there). The environment's part of a step
is the model's choice (log 2). -/
def Obligations.LatchDeadOutsidePayload : Prop :=
  ∀ (s t : State) (x : Byte), s.phase ≠ .payload → step s = .next t →
    ∃ y, step { s with sof := x } = .next { t with sof := y } ∧ (t.phase = .payload → y = t.sof)

/-- The undefined lines of `rx_data` reach no state but themselves (spec/93_implementation_defined.md U3).
That they are a field of State is the model's choice (log 6), and so is the environment's part of a step
(log 2). -/
def Obligations.IdleLinesHaveNoEffect : Prop :=
  ∀ (s t : State) (x : Byte), step s = .next t →
    ∃ y, step { s with rxIdle := x } = .next { t with rxIdle := y }

/-- A byte may arrive before or after an operation to the same end, and does not change which operation
runs unless that is IDLE or WAIT (spec/92_eei_decisions.md D21; spec/20_memory.md section 6). -/
def Obligations.ArrivalsCommuteWithOperations : Prop :=
  (∀ (i : Instr) (s t : State) (b : Byte), exec i s = .next t →
    exec i { s with rxq := s.rxq ++ [b] } = .next { t with rxq := t.rxq ++ [b] }) ∧
  (∀ (i : Instr) (s : State) (b : Byte), selected s = some i → i ≠ .idle → i ≠ .wait →
    selected { s with rxq := s.rxq ++ [b] } = some i)

/-! ## Invariants and progress -/

/-- The invariants hold at reset (R37, marked derived there; the reset values are decisions D14 to
D16). -/
def Obligations.ResetMeetsInvariants : Prop :=
  State.reset.SequencerInv ∧ State.reset.MaskInv ∧
  ∀ s : State, s.cfg.resetMask.toNat ≤ 0x3F →
    (assertReset s).SequencerInv ∧ (assertReset s).MaskInv

/-- Every step keeps the invariants R37(a) to (d), from every state that meets them and whatever the
environment does, resets included. The environment's part of a step is the model's choice (log 2). -/
def Obligations.StepKeepsInvariants : Prop :=
  (∀ s t : State, s.SequencerInv → step s = .next t → t.SequencerInv) ∧
  (∀ s t : State, s.SequencerInv → s.MaskInv → step s = .next t → t.MaskInv)

/-- The loop never ends: from every state that meets the sequencer's invariant a step gives a next state,
no fault and no refusal, and so does every number of steps (R173, R190, R209). In a stall, which R178 and
R209 call stuck, it does so because WAIT is a step to the same state, the model's choice (log 11); the
environment's part of a step is log 2's. -/
def Obligations.LoopRunsForever : Prop :=
  ∀ s : State, s.SequencerInv → ∀ k, ∃ t, steps k s = .next t ∧ t.SequencerInv

/-- The block stands still exactly in WAIT (R178, marked derived there). That standing still is a step to
the same state is the model's choice (log 11). -/
def Obligations.OnlyWaitStandsStill : Prop :=
  ∀ (s t : State) (i : Instr), selected s = some i → exec i s = .next t →
    (t = s ↔ i = .wait) ∧ (i = .wait ↔ s.Stalled)

/-- A stall lasts as long as no byte arrives and no reset is applied, and meanwhile nothing of the block's
and nothing of the sink's changes (spec/41_frame_decoder.md section 2, spec/70_reset_and_hazards.md
section 3). That a stall is a run of steps is the model's choice (log 11), and so is the list along which
they are counted (log 2). -/
def Obligations.StallPersistsWithoutBytes : Prop :=
  ∀ (k : Nat) (s : State), s.Stalled →
    noReset (s.inputs.take k) = true → arrivals (s.inputs.take k) = [] →
    ∃ x, steps k s = .next { s with inputs := s.inputs.drop k, rxIdle := x }

/-- The tick as a function (R174 with R126 and R157, marked derived there), against the operation-level
steps: if the stream holds the whole unit at the poll, 6 or 19 steps are one tick, and bytes that arrive
meanwhile wait behind it. The list by which they arrive is the model's own (log 2). -/
def Obligations.TickIsDecodeThenRender : Prop :=
  ∀ (s : State) (m : BitVec 8) (used : Nat), s.phase = .poll →
    decodeOfTick s.mask s.rxq = some (m, used) →
    ∀ k, k = (if used = frameLen then 19 else 6) → noReset (s.inputs.take k) = true →
    ∃ t, steps k s = .next t ∧ t.phase = .poll ∧ t.mask = m ∧ t.cfg = s.cfg ∧
      t.rxq = s.rxq.drop used ++ arrivals (s.inputs.take k) ∧
      t.inputs = s.inputs.drop k ∧
      (∀ i : PixelIndex, t.raw.get i = renderedPixel s.cfg m i (s.raw.get i)) ∧
      (∀ i : PixelIndex, t.cor.get i = correctPixel s.cfg (t.raw.get i)) ∧
      t.txlog = s.txlog ++ [t.cor]

/-- A frame the source never completes hangs the tick (R126, R192; spec/93_implementation_defined.md U6):
the bytes that are there are consumed, and from then on the block is stalled with the old mask and
nothing rendered or submitted. That the stall goes on as steps is the model's choice (log 11), and so is
the list that says what the environment does (log 2). -/
def Obligations.IncompleteFrameHangs : Prop :=
  ∀ s : State, s.phase = .poll → decodeOfTick s.mask s.rxq = none →
    noReset s.inputs = true → arrivals s.inputs = [] →
    ∀ k, s.rxq.length ≤ k →
    ∃ t, steps k s = .next t ∧ t.Stalled ∧ t.mask = s.mask ∧ t.raw = s.raw ∧ t.cor = s.cor ∧
      t.txlog = s.txlog ∧ t.pcnt.toNat + s.rxq.length = frameLen

/-- However the payload bytes come in, the frame completes as if there had been no wait (R198): in at most
as many steps as there are bytes missing and entries of `inputs`, the latched marker is committed, and
holds leave no trace in the buffers, the output or the stream. That a hold counts as a step is the model's
choice (log 11), and so is the list in the bound (log 2). -/
def Obligations.HoldsLeaveNoTrace : Prop :=
  ∀ s : State, s.phase = .payload → 1 ≤ s.pcnt.toNat → s.pcnt.toNat ≤ 13 →
    noReset s.inputs = true → s.pcnt.toNat ≤ (s.rxq ++ arrivals s.inputs).length →
    ∃ k t, k ≤ s.pcnt.toNat + s.inputs.length ∧ steps k s = .next t ∧ t.phase = .fade ∧
      t.mask = extract s.sof ∧ t.pcnt = 0 ∧ t.sof = s.sof ∧ t.raw = s.raw ∧ t.cor = s.cor ∧
      t.txlog = s.txlog ∧
      t.rxq ++ arrivals t.inputs = (s.rxq ++ arrivals s.inputs).drop s.pcnt.toNat

/-- While the line is silent a lit zone holds its colour and an unlit one fades, to black within 255 ticks
at every legal rate, in both buffers; one frame is submitted a tick (R158, marked derived there). The list
that says the line is silent is the model's own (log 2). -/
def Obligations.SilentTicksFadeToBlack : Prop :=
  ∀ (s : State) (n : Nat), s.phase = .poll → s.rxq = [] →
    noReset s.inputs = true → arrivals s.inputs = [] →
    ∃ t, steps (6 * n) s = .next t ∧ t.phase = .poll ∧ t.mask = s.mask ∧
      t.txlog.length = s.txlog.length + n ∧
      ∀ i : PixelIndex,
        (isLit s.mask (s.cfg.zoneOf i) = false →
          t.raw.get i = (fadePixel s.cfg.fadeRate)^[n] (s.raw.get i) ∧
          (255 ≤ n → t.raw.get i = Pixel.black ∧ t.cor.get i = Pixel.black)) ∧
        (isLit s.mask (s.cfg.zoneOf i) = true → 1 ≤ n →
          t.raw.get i = (s.cfg.zoneOf i).color ∧
          t.cor.get i = correctPixel s.cfg (s.cfg.zoneOf i).color)

/-! ## Reset and ports -/

/-- What reset leaves (R36, R220, R222, resting on decisions D14 to D16): every element of the block at its
reset value and no frame listed, the byte source untouched; and the reference values. That a reset lists no
frame is the model's reading of R36 against R222 (log 4). State.reset has an empty stream by the model's
choice (log 3), and the statement says nothing of it. -/
def Obligations.ResetValues : Prop :=
  (∀ s : State, assertReset s = { s with
    mask := s.cfg.resetMask, raw := s.cfg.resetRaw, cor := PixelBuffer.fill Pixel.black,
    phase := .poll, pcnt := 0, sof := 0x00, txlog := [] }) ∧
  State.reset.mask = 0x00 ∧ (∀ i, State.reset.raw.get i = ⟨0, 0, 0⟩) ∧
  (∀ i, State.reset.cor.get i = ⟨0, 0, 0⟩) ∧ State.reset.phase.code = 0b000 ∧
  State.reset.pcnt = 0 ∧ State.reset.sof = 0x00 ∧ State.reset.txlog = []

/-- Reset is the way out of a stall (spec/70_reset_and_hazards.md section 1, marked derived there). That
the reset comes after a step of WAIT is the model's choice (log 11), and so is the list by which it comes
(log 2). -/
def Obligations.ResetReleasesStall : Prop :=
  ∀ (s : State) (rest : List (List EnvEvent)), s.Stalled → s.inputs = [.rst] :: rest →
    ∃ t, step s = .next t ∧ t.phase = .poll ∧ t.pcnt = 0 ∧ t.sof = 0x00 ∧
      t.mask = s.cfg.resetMask ∧ t.rxq = [] ∧ t.inputs = rest ∧ selected t = some .idle

/-- The packing of `tx_frame` (decision D4): pixel 0 in the most significant 24 bits, each pixel
`{r, g, b}` with `r` in bits 23:16. -/
def Obligations.FramePacking : Prop :=
  (∀ p : Pixel, (packPixel p).extractLsb' 16 8 = p.r ∧ (packPixel p).extractLsb' 8 8 = p.g ∧
    (packPixel p).extractLsb' 0 8 = p.b) ∧
  (∀ (s : State) (i : PixelIndex),
    (txFrame s).extractLsb' (24 * (59 - i.val)) 24 = packPixel (s.cor.get i))
end

