-- ==== Sys2Proof/Laws/Buffer.lean ====
section
/-! SUPPORT. What each buffer operation does to one pixel, and the arithmetic of a faded channel. -/

namespace Sys2Proof

/-- Two buffers with the same pixels are one buffer. -/
theorem PixelBuffer.ext_get {a b : PixelBuffer} (h : ∀ i, a.get i = b.get i) : a = b := by
  obtain ⟨xs, hx⟩ := a
  obtain ⟨ys, hy⟩ := b
  congr 1
  apply List.ext_getElem (hx.trans hy.symm)
  intro k hk _
  exact h ⟨k, hx ▸ hk⟩

@[simp] theorem PixelBuffer.get_fill (p : Pixel) (i : PixelIndex) : (PixelBuffer.fill p).get i = p := by
  simp [PixelBuffer.get, PixelBuffer.fill]

@[simp] theorem PixelBuffer.get_map (f : Pixel → Pixel) (b : PixelBuffer) (i : PixelIndex) :
    (b.map f).get i = f (b.get i) := by
  simp [PixelBuffer.get, PixelBuffer.map]

@[simp] theorem PixelBuffer.get_paint (lo hi : Nat) (c : Pixel) (b : PixelBuffer) (i : PixelIndex) :
    (b.paint lo hi c).get i = if lo ≤ i.val ∧ i.val < hi then c else b.get i := by
  simp [PixelBuffer.get, PixelBuffer.paint]

theorem Zone.covers_iff (z : Zone) (i : Nat) : z.covers i = true ↔ z.lo ≤ i ∧ i < z.hi := by
  simp [Zone.covers]

theorem Config.zoneOf_mem (cfg : Config) (i : PixelIndex) : cfg.zoneOf i ∈ cfg.zones :=
  List.mem_of_find?_eq_some (Option.some_get (cfg.covered i)).symm

theorem Config.zoneOf_covers (cfg : Config) (i : PixelIndex) : (cfg.zoneOf i).covers i.val = true :=
  List.find?_some (p := fun z : Zone => z.covers i.val) (Option.some_get (cfg.covered i)).symm

namespace Machine

@[simp] theorem get_fadeBuffer (rate : Byte) (b : PixelBuffer) (i : PixelIndex) :
    (fadeBuffer rate b).get i = fadePixel rate (b.get i) := by
  simp [fadeBuffer]

@[simp] theorem get_correctBuffer (cfg : Config) (b : PixelBuffer) (i : PixelIndex) :
    (correctBuffer cfg b).get i = correctPixel cfg (b.get i) := by
  simp [correctBuffer]

/-- A zone's write, seen from one pixel (R143). -/
theorem get_paintZone (mask : BitVec 8) (b : PixelBuffer) (z : Zone) (i : PixelIndex) :
    (paintZone mask b z).get i =
      if isLit mask z = true ∧ z.covers i.val = true then z.color else b.get i := by
  by_cases h : isLit mask z = true <;> simp [paintZone, h, Zone.covers_iff]

/-- All the zones' writes, seen from one pixel: the last row that is lit and covers it decides
(R143, R146). -/
theorem get_assignZones (zones : List Zone) (mask : BitVec 8) (b : PixelBuffer) (i : PixelIndex) :
    (assignZones zones mask b).get i =
      zones.foldl (fun p z => if isLit mask z = true ∧ z.covers i.val = true then z.color else p)
        (b.get i) := by
  unfold assignZones
  induction zones generalizing b with
  | nil => rfl
  | cons z zs ih => simp only [List.foldl_cons, ih, get_paintZone]

/-- The faded channel as a number: the 8 bits hold the quotient, whatever the rate (R151, R152(f)). -/
theorem fadeChannel_toNat (rate : Byte) (c : Channel) :
    (fadeChannel rate c).toNat = c.toNat * (256 - rate.toNat) / 256 := by
  have hc := c.isLt
  have h : c.toNat * (256 - rate.toNat) / 256 < 2 ^ 8 := by
    apply Nat.div_lt_of_lt_mul
    calc c.toNat * (256 - rate.toNat) ≤ c.toNat * 256 := Nat.mul_le_mul_left _ (Nat.sub_le _ _)
      _ < 256 * 2 ^ 8 := by omega
  rw [fadeChannel, BitVec.toNat_ofNat, Nat.mod_eq_of_lt h]

end Machine

end Sys2Proof
end

