-- ==== Sys2Proof/Laws/Decode.lean ====
section
/-! SUPPORT. The dispatch word's fields, what each phase's words decode to, and the decoder's totality. -/

namespace Sys2Proof

@[simp] theorem Phase.ofCode_code (p : Phase) : Phase.ofCode p.code = p := by
  cases p <;> rfl

theorem Phase.code_ofCode (c : BitVec 3) : (Phase.ofCode c).code = c := by
  revert c
  decide

theorem Phase.code_injective (p q : Phase) (h : p.code = q.code) : p = q := by
  rw [← Phase.ofCode_code p, h, Phase.ofCode_code]

/-- The bits of a packed word, from the fields' bits. -/
theorem DispatchWord.getLsbD_pack (p : BitVec 3) (a : Bool) (d : Byte) (i : Nat) :
    (DispatchWord.pack p a d).getLsbD i =
      if i < 8 then d.getLsbD i else if i = 8 then a else p.getLsbD (i - 9) := by
  have h : ∀ w : BitVec (3 + 1 + 8), w = p ++ BitVec.ofBool a ++ d →
      w.getLsbD i = if i < 8 then d.getLsbD i else if i = 8 then a else p.getLsbD (i - 9) := by
    rintro _ rfl
    simp only [BitVec.getLsbD_append, BitVec.getLsbD_ofBool]
    split
    · rfl
    · by_cases h8 : i = 8
      · simp [h8]
      · simp [h8, show ¬ i - 8 < 1 by omega, show i - 8 - 1 = i - 9 by omega]
  exact h _ rfl

@[simp] theorem DispatchWord.pack_phaseBits (p : BitVec 3) (a : Bool) (d : Byte) :
    (DispatchWord.pack p a d).phaseBits = p := by
  ext i hi
  simp [phaseBits, getLsbD_pack, show ¬ 9 + i < 8 by omega, show ¬ 9 + i = 8 by omega,
    show 9 + i - 9 = i by omega, BitVec.getLsbD_eq_getElem hi]

@[simp] theorem DispatchWord.pack_rxAvail (p : BitVec 3) (a : Bool) (d : Byte) :
    (DispatchWord.pack p a d).rxAvail = a := by
  rw [rxAvail, getLsbD_pack]
  rfl

@[simp] theorem DispatchWord.pack_rxData (p : BitVec 3) (a : Bool) (d : Byte) :
    (DispatchWord.pack p a d).rxData = d := by
  ext i hi
  simp [rxData, getLsbD_pack, hi]

/-- A dispatch word is packed from its fields (R88). -/
theorem DispatchWord.pack_fields (w : DispatchWord) : pack w.phaseBits w.rxAvail w.rxData = w := by
  apply BitVec.eq_of_getLsbD_eq
  intro i hi
  rw [getLsbD_pack]
  split
  · simp [rxData, *]
  · split
    · simp [rxAvail, *]
    · simp [phaseBits, show i - 9 < 3 by omega, show 9 + (i - 9) = i by omega]

/-! ## What the decoder makes of a word, phase by phase (R89) -/

/-- A row of whole mask in the phase bits selects words of its own phase only (R89). -/
theorem Row.phaseBits_of_selects {r : Row} {w : DispatchWord} (hr : r.mask.phaseBits = 0b111)
    (h : r.selects w = true) : r.pattern.phaseBits = w.phaseBits := by
  have hw : r.pattern = w &&& r.mask := (beq_iff_eq.mp h).symm
  have hand : (w &&& r.mask).phaseBits = w.phaseBits &&& r.mask.phaseBits := by
    ext i hi
    simp [DispatchWord.phaseBits]
  rw [hw, hand, hr]
  exact BitVec.and_allOnes

/-- Only the rows of the word's phase matter (R89). -/
theorem decode_of_phase (w : DispatchWord) :
    decode w = ((operationMap.filter fun r => r.pattern.phaseBits == w.phaseBits).find?
      (·.selects w)).map (·.operation w) := by
  have hmask : ∀ r ∈ operationMap, r.mask.phaseBits = 0b111 := by decide
  rw [decode, List.find?_filter]
  congr 1
  refine List.find?_congr fun r hr => ?_
  cases h : r.selects w
  · simp
  · simp [Row.phaseBits_of_selects (hmask r hr) h]

/-- The bits of a word that a mask of the phase bits alone keeps. -/
theorem DispatchWord.pack_and_phase (p : BitVec 3) (a : Bool) (d : Byte) :
    DispatchWord.pack p a d &&& 0xE00 = DispatchWord.pack p false 0 := by
  apply BitVec.eq_of_getLsbD_eq
  intro i hi
  rw [BitVec.getLsbD_and, getLsbD_pack, getLsbD_pack]
  interval_cases i <;> simp

theorem decode_poll_none (d : Byte) :
    decode (DispatchWord.pack (Phase.code .poll) false d) = some .idle := by
  revert d
  decide +kernel

/-- At POLL the byte offered decides by its class (R85). -/
theorem decode_poll_some (b : Byte) :
    decode (DispatchWord.pack (Phase.code .poll) true b) =
      if b ≤ 0x1F then some (.drop00 b)
      else if b ≤ 0x2F then some (.drop20 b)
      else if b ≤ 0x3F then some (.sof30 b)
      else if b ≤ 0x5F then some (.sof40 b)
      else if b ≤ 0x6F then some (.sof60 b)
      else if b ≤ 0x7F then some (.drop70 b)
      else some (.drop80 b) := by
  revert b
  decide +kernel

theorem decode_payload_none (d : Byte) :
    decode (DispatchWord.pack (Phase.code .payload) false d) = some .wait := by
  revert d
  decide +kernel

theorem decode_payload_some (b : Byte) :
    decode (DispatchWord.pack (Phase.code .payload) true b) = some (.pld b) := by
  revert b
  decide +kernel

/-- A phase with one row, whose mask is that of the phase bits, decodes to that row's operation. -/
theorem decode_of_one_row (p : BitVec 3) (a : Bool) (d : Byte) (r : Row)
    (hrows : (operationMap.filter fun r => r.pattern.phaseBits == p) = [r])
    (hmask : r.mask = 0xE00) (hpattern : r.pattern = DispatchWord.pack p false 0) :
    decode (DispatchWord.pack p a d) = some (r.operation (DispatchWord.pack p a d)) := by
  have hsel : r.selects (DispatchWord.pack p a d) = true := by
    rw [Row.selects, hmask, hpattern, DispatchWord.pack_and_phase, beq_self_eq_true]
  rw [decode_of_phase, DispatchWord.pack_phaseBits, hrows]
  simp [hsel]

theorem decode_fade (a : Bool) (d : Byte) :
    decode (DispatchWord.pack (Phase.code .fade) a d) = some .fade :=
  decode_of_one_row _ a d ⟨"FADE", 0x400, 0xE00, fun _ => .fade⟩ rfl rfl rfl

theorem decode_assign (a : Bool) (d : Byte) :
    decode (DispatchWord.pack (Phase.code .assign) a d) = some .assign :=
  decode_of_one_row _ a d ⟨"ASSIGN", 0x600, 0xE00, fun _ => .assign⟩ rfl rfl rfl

theorem decode_correct (a : Bool) (d : Byte) :
    decode (DispatchWord.pack (Phase.code .correct) a d) = some .correct :=
  decode_of_one_row _ a d ⟨"CORRECT", 0x800, 0xE00, fun _ => .correct⟩ rfl rfl rfl

theorem decode_submit (a : Bool) (d : Byte) :
    decode (DispatchWord.pack (Phase.code .submit) a d) = some .submit :=
  decode_of_one_row _ a d ⟨"SUBMIT", 0xA00, 0xE00, fun _ => .submit⟩ rfl rfl rfl

theorem decode_delay (a : Bool) (d : Byte) :
    decode (DispatchWord.pack (Phase.code .delay) a d) = some .delay :=
  decode_of_one_row _ a d ⟨"DELAY", 0xC00, 0xE00, fun _ => .delay⟩ rfl rfl rfl

theorem decode_unused (a : Bool) (d : Byte) :
    decode (DispatchWord.pack (Phase.code .unused) a d) = some .illegal :=
  decode_of_one_row _ a d ⟨"ILLEGAL", 0xE00, 0xE00, fun _ => .illegal⟩ rfl rfl rfl

/-- Every dispatch word selects an operation, a term of the table (R85, R89). -/
theorem decode_wellFormed_isSome (w : DispatchWord) : ∃ i, decode w = some i ∧ i.wellFormed = true := by
  rw [← DispatchWord.pack_fields w, ← Phase.code_ofCode w.phaseBits]
  generalize Phase.ofCode w.phaseBits = p
  generalize w.rxAvail = a
  generalize w.rxData = d
  cases p
  · cases a
    · exact ⟨_, decode_poll_none d, rfl⟩
    · rw [decode_poll_some]
      repeat' split
      all_goals refine ⟨_, rfl, ?_⟩
      all_goals simp only [Instr.wellFormed, Bool.and_eq_true, decide_eq_true_eq]
      all_goals bv_omega
  · cases a
    · exact ⟨_, decode_payload_none d, rfl⟩
    · exact ⟨_, decode_payload_some d, rfl⟩
  · exact ⟨_, decode_fade a d, rfl⟩
  · exact ⟨_, decode_assign a d, rfl⟩
  · exact ⟨_, decode_correct a d, rfl⟩
  · exact ⟨_, decode_submit a d, rfl⟩
  · exact ⟨_, decode_delay a d, rfl⟩
  · exact ⟨_, decode_unused a d, rfl⟩

/-- Every dispatch word selects an operation (R89). -/
theorem decode_isSome (w : DispatchWord) : (decode w).isSome = true := by
  obtain ⟨i, hi, _⟩ := decode_wellFormed_isSome w
  rw [hi, Option.isSome_some]

/-- The operation a dispatch word selects is a term of the table (R85, R89). -/
theorem decode_wellFormed (w : DispatchWord) : ((decode w).all Instr.wellFormed) = true := by
  obtain ⟨i, hi, h⟩ := decode_wellFormed_isSome w
  rw [hi, Option.all_some, h]

end Sys2Proof
end

