-- ==== Sys2Proof/Laws/State.lean ====
section
/-! SUPPORT. Every register write read back through every field. -/

namespace Sys2Proof.Machine

@[simp] theorem State.setMask_cfg (s : State) (v : BitVec 8) : (s.setMask v).cfg = s.cfg := rfl
@[simp] theorem State.setMask_mask (s : State) (v : BitVec 8) : (s.setMask v).mask = v := rfl
@[simp] theorem State.setMask_raw (s : State) (v : BitVec 8) : (s.setMask v).raw = s.raw := rfl
@[simp] theorem State.setMask_cor (s : State) (v : BitVec 8) : (s.setMask v).cor = s.cor := rfl
@[simp] theorem State.setMask_phase (s : State) (v : BitVec 8) : (s.setMask v).phase = s.phase := rfl
@[simp] theorem State.setMask_pcnt (s : State) (v : BitVec 8) : (s.setMask v).pcnt = s.pcnt := rfl
@[simp] theorem State.setMask_sof (s : State) (v : BitVec 8) : (s.setMask v).sof = s.sof := rfl
@[simp] theorem State.setMask_rxq (s : State) (v : BitVec 8) : (s.setMask v).rxq = s.rxq := rfl
@[simp] theorem State.setMask_txlog (s : State) (v : BitVec 8) : (s.setMask v).txlog = s.txlog := rfl
@[simp] theorem State.setMask_rxIdle (s : State) (v : BitVec 8) : (s.setMask v).rxIdle = s.rxIdle := rfl
@[simp] theorem State.setMask_inputs (s : State) (v : BitVec 8) : (s.setMask v).inputs = s.inputs := rfl

@[simp] theorem State.setRaw_cfg (s : State) (v : PixelBuffer) : (s.setRaw v).cfg = s.cfg := rfl
@[simp] theorem State.setRaw_mask (s : State) (v : PixelBuffer) : (s.setRaw v).mask = s.mask := rfl
@[simp] theorem State.setRaw_raw (s : State) (v : PixelBuffer) : (s.setRaw v).raw = v := rfl
@[simp] theorem State.setRaw_cor (s : State) (v : PixelBuffer) : (s.setRaw v).cor = s.cor := rfl
@[simp] theorem State.setRaw_phase (s : State) (v : PixelBuffer) : (s.setRaw v).phase = s.phase := rfl
@[simp] theorem State.setRaw_pcnt (s : State) (v : PixelBuffer) : (s.setRaw v).pcnt = s.pcnt := rfl
@[simp] theorem State.setRaw_sof (s : State) (v : PixelBuffer) : (s.setRaw v).sof = s.sof := rfl
@[simp] theorem State.setRaw_rxq (s : State) (v : PixelBuffer) : (s.setRaw v).rxq = s.rxq := rfl
@[simp] theorem State.setRaw_txlog (s : State) (v : PixelBuffer) : (s.setRaw v).txlog = s.txlog := rfl
@[simp] theorem State.setRaw_rxIdle (s : State) (v : PixelBuffer) : (s.setRaw v).rxIdle = s.rxIdle := rfl
@[simp] theorem State.setRaw_inputs (s : State) (v : PixelBuffer) : (s.setRaw v).inputs = s.inputs := rfl

@[simp] theorem State.setCor_cfg (s : State) (v : PixelBuffer) : (s.setCor v).cfg = s.cfg := rfl
@[simp] theorem State.setCor_mask (s : State) (v : PixelBuffer) : (s.setCor v).mask = s.mask := rfl
@[simp] theorem State.setCor_raw (s : State) (v : PixelBuffer) : (s.setCor v).raw = s.raw := rfl
@[simp] theorem State.setCor_cor (s : State) (v : PixelBuffer) : (s.setCor v).cor = v := rfl
@[simp] theorem State.setCor_phase (s : State) (v : PixelBuffer) : (s.setCor v).phase = s.phase := rfl
@[simp] theorem State.setCor_pcnt (s : State) (v : PixelBuffer) : (s.setCor v).pcnt = s.pcnt := rfl
@[simp] theorem State.setCor_sof (s : State) (v : PixelBuffer) : (s.setCor v).sof = s.sof := rfl
@[simp] theorem State.setCor_rxq (s : State) (v : PixelBuffer) : (s.setCor v).rxq = s.rxq := rfl
@[simp] theorem State.setCor_txlog (s : State) (v : PixelBuffer) : (s.setCor v).txlog = s.txlog := rfl
@[simp] theorem State.setCor_rxIdle (s : State) (v : PixelBuffer) : (s.setCor v).rxIdle = s.rxIdle := rfl
@[simp] theorem State.setCor_inputs (s : State) (v : PixelBuffer) : (s.setCor v).inputs = s.inputs := rfl

@[simp] theorem State.setPhase_cfg (s : State) (v : Phase) : (s.setPhase v).cfg = s.cfg := rfl
@[simp] theorem State.setPhase_mask (s : State) (v : Phase) : (s.setPhase v).mask = s.mask := rfl
@[simp] theorem State.setPhase_raw (s : State) (v : Phase) : (s.setPhase v).raw = s.raw := rfl
@[simp] theorem State.setPhase_cor (s : State) (v : Phase) : (s.setPhase v).cor = s.cor := rfl
@[simp] theorem State.setPhase_phase (s : State) (v : Phase) : (s.setPhase v).phase = v := rfl
@[simp] theorem State.setPhase_pcnt (s : State) (v : Phase) : (s.setPhase v).pcnt = s.pcnt := rfl
@[simp] theorem State.setPhase_sof (s : State) (v : Phase) : (s.setPhase v).sof = s.sof := rfl
@[simp] theorem State.setPhase_rxq (s : State) (v : Phase) : (s.setPhase v).rxq = s.rxq := rfl
@[simp] theorem State.setPhase_txlog (s : State) (v : Phase) : (s.setPhase v).txlog = s.txlog := rfl
@[simp] theorem State.setPhase_rxIdle (s : State) (v : Phase) : (s.setPhase v).rxIdle = s.rxIdle := rfl
@[simp] theorem State.setPhase_inputs (s : State) (v : Phase) : (s.setPhase v).inputs = s.inputs := rfl

@[simp] theorem State.setPcnt_cfg (s : State) (v : BitVec 4) : (s.setPcnt v).cfg = s.cfg := rfl
@[simp] theorem State.setPcnt_mask (s : State) (v : BitVec 4) : (s.setPcnt v).mask = s.mask := rfl
@[simp] theorem State.setPcnt_raw (s : State) (v : BitVec 4) : (s.setPcnt v).raw = s.raw := rfl
@[simp] theorem State.setPcnt_cor (s : State) (v : BitVec 4) : (s.setPcnt v).cor = s.cor := rfl
@[simp] theorem State.setPcnt_phase (s : State) (v : BitVec 4) : (s.setPcnt v).phase = s.phase := rfl
@[simp] theorem State.setPcnt_pcnt (s : State) (v : BitVec 4) : (s.setPcnt v).pcnt = v := rfl
@[simp] theorem State.setPcnt_sof (s : State) (v : BitVec 4) : (s.setPcnt v).sof = s.sof := rfl
@[simp] theorem State.setPcnt_rxq (s : State) (v : BitVec 4) : (s.setPcnt v).rxq = s.rxq := rfl
@[simp] theorem State.setPcnt_txlog (s : State) (v : BitVec 4) : (s.setPcnt v).txlog = s.txlog := rfl
@[simp] theorem State.setPcnt_rxIdle (s : State) (v : BitVec 4) : (s.setPcnt v).rxIdle = s.rxIdle := rfl
@[simp] theorem State.setPcnt_inputs (s : State) (v : BitVec 4) : (s.setPcnt v).inputs = s.inputs := rfl

@[simp] theorem State.setSof_cfg (s : State) (v : Byte) : (s.setSof v).cfg = s.cfg := rfl
@[simp] theorem State.setSof_mask (s : State) (v : Byte) : (s.setSof v).mask = s.mask := rfl
@[simp] theorem State.setSof_raw (s : State) (v : Byte) : (s.setSof v).raw = s.raw := rfl
@[simp] theorem State.setSof_cor (s : State) (v : Byte) : (s.setSof v).cor = s.cor := rfl
@[simp] theorem State.setSof_phase (s : State) (v : Byte) : (s.setSof v).phase = s.phase := rfl
@[simp] theorem State.setSof_pcnt (s : State) (v : Byte) : (s.setSof v).pcnt = s.pcnt := rfl
@[simp] theorem State.setSof_sof (s : State) (v : Byte) : (s.setSof v).sof = v := rfl
@[simp] theorem State.setSof_rxq (s : State) (v : Byte) : (s.setSof v).rxq = s.rxq := rfl
@[simp] theorem State.setSof_txlog (s : State) (v : Byte) : (s.setSof v).txlog = s.txlog := rfl
@[simp] theorem State.setSof_rxIdle (s : State) (v : Byte) : (s.setSof v).rxIdle = s.rxIdle := rfl
@[simp] theorem State.setSof_inputs (s : State) (v : Byte) : (s.setSof v).inputs = s.inputs := rfl

@[simp] theorem State.setRxq_cfg (s : State) (v : List Byte) : (s.setRxq v).cfg = s.cfg := rfl
@[simp] theorem State.setRxq_mask (s : State) (v : List Byte) : (s.setRxq v).mask = s.mask := rfl
@[simp] theorem State.setRxq_raw (s : State) (v : List Byte) : (s.setRxq v).raw = s.raw := rfl
@[simp] theorem State.setRxq_cor (s : State) (v : List Byte) : (s.setRxq v).cor = s.cor := rfl
@[simp] theorem State.setRxq_phase (s : State) (v : List Byte) : (s.setRxq v).phase = s.phase := rfl
@[simp] theorem State.setRxq_pcnt (s : State) (v : List Byte) : (s.setRxq v).pcnt = s.pcnt := rfl
@[simp] theorem State.setRxq_sof (s : State) (v : List Byte) : (s.setRxq v).sof = s.sof := rfl
@[simp] theorem State.setRxq_rxq (s : State) (v : List Byte) : (s.setRxq v).rxq = v := rfl
@[simp] theorem State.setRxq_txlog (s : State) (v : List Byte) : (s.setRxq v).txlog = s.txlog := rfl
@[simp] theorem State.setRxq_rxIdle (s : State) (v : List Byte) : (s.setRxq v).rxIdle = s.rxIdle := rfl
@[simp] theorem State.setRxq_inputs (s : State) (v : List Byte) : (s.setRxq v).inputs = s.inputs := rfl

@[simp] theorem State.setTxlog_cfg (s : State) (v : List PixelBuffer) : (s.setTxlog v).cfg = s.cfg := rfl
@[simp] theorem State.setTxlog_mask (s : State) (v : List PixelBuffer) : (s.setTxlog v).mask = s.mask := rfl
@[simp] theorem State.setTxlog_raw (s : State) (v : List PixelBuffer) : (s.setTxlog v).raw = s.raw := rfl
@[simp] theorem State.setTxlog_cor (s : State) (v : List PixelBuffer) : (s.setTxlog v).cor = s.cor := rfl
@[simp] theorem State.setTxlog_phase (s : State) (v : List PixelBuffer) : (s.setTxlog v).phase = s.phase := rfl
@[simp] theorem State.setTxlog_pcnt (s : State) (v : List PixelBuffer) : (s.setTxlog v).pcnt = s.pcnt := rfl
@[simp] theorem State.setTxlog_sof (s : State) (v : List PixelBuffer) : (s.setTxlog v).sof = s.sof := rfl
@[simp] theorem State.setTxlog_rxq (s : State) (v : List PixelBuffer) : (s.setTxlog v).rxq = s.rxq := rfl
@[simp] theorem State.setTxlog_txlog (s : State) (v : List PixelBuffer) : (s.setTxlog v).txlog = v := rfl
@[simp] theorem State.setTxlog_rxIdle (s : State) (v : List PixelBuffer) : (s.setTxlog v).rxIdle = s.rxIdle := rfl
@[simp] theorem State.setTxlog_inputs (s : State) (v : List PixelBuffer) : (s.setTxlog v).inputs = s.inputs := rfl

@[simp] theorem State.setRxIdle_cfg (s : State) (v : Byte) : (s.setRxIdle v).cfg = s.cfg := rfl
@[simp] theorem State.setRxIdle_mask (s : State) (v : Byte) : (s.setRxIdle v).mask = s.mask := rfl
@[simp] theorem State.setRxIdle_raw (s : State) (v : Byte) : (s.setRxIdle v).raw = s.raw := rfl
@[simp] theorem State.setRxIdle_cor (s : State) (v : Byte) : (s.setRxIdle v).cor = s.cor := rfl
@[simp] theorem State.setRxIdle_phase (s : State) (v : Byte) : (s.setRxIdle v).phase = s.phase := rfl
@[simp] theorem State.setRxIdle_pcnt (s : State) (v : Byte) : (s.setRxIdle v).pcnt = s.pcnt := rfl
@[simp] theorem State.setRxIdle_sof (s : State) (v : Byte) : (s.setRxIdle v).sof = s.sof := rfl
@[simp] theorem State.setRxIdle_rxq (s : State) (v : Byte) : (s.setRxIdle v).rxq = s.rxq := rfl
@[simp] theorem State.setRxIdle_txlog (s : State) (v : Byte) : (s.setRxIdle v).txlog = s.txlog := rfl
@[simp] theorem State.setRxIdle_rxIdle (s : State) (v : Byte) : (s.setRxIdle v).rxIdle = v := rfl
@[simp] theorem State.setRxIdle_inputs (s : State) (v : Byte) : (s.setRxIdle v).inputs = s.inputs := rfl

@[simp] theorem State.setInputs_cfg (s : State) (v : List (List EnvEvent)) : (s.setInputs v).cfg = s.cfg := rfl
@[simp] theorem State.setInputs_mask (s : State) (v : List (List EnvEvent)) : (s.setInputs v).mask = s.mask := rfl
@[simp] theorem State.setInputs_raw (s : State) (v : List (List EnvEvent)) : (s.setInputs v).raw = s.raw := rfl
@[simp] theorem State.setInputs_cor (s : State) (v : List (List EnvEvent)) : (s.setInputs v).cor = s.cor := rfl
@[simp] theorem State.setInputs_phase (s : State) (v : List (List EnvEvent)) : (s.setInputs v).phase = s.phase := rfl
@[simp] theorem State.setInputs_pcnt (s : State) (v : List (List EnvEvent)) : (s.setInputs v).pcnt = s.pcnt := rfl
@[simp] theorem State.setInputs_sof (s : State) (v : List (List EnvEvent)) : (s.setInputs v).sof = s.sof := rfl
@[simp] theorem State.setInputs_rxq (s : State) (v : List (List EnvEvent)) : (s.setInputs v).rxq = s.rxq := rfl
@[simp] theorem State.setInputs_txlog (s : State) (v : List (List EnvEvent)) : (s.setInputs v).txlog = s.txlog := rfl
@[simp] theorem State.setInputs_rxIdle (s : State) (v : List (List EnvEvent)) : (s.setInputs v).rxIdle = s.rxIdle := rfl
@[simp] theorem State.setInputs_inputs (s : State) (v : List (List EnvEvent)) : (s.setInputs v).inputs = v := rfl

end Sys2Proof.Machine
end

