-- ==== Sys2Proof/Laws/Ops.lean ====
section
/-! SUPPORT. Everything a shared operation over the streams can do, once each, and what the environment
does. -/

namespace Sys2Proof.Machine

theorem rxAvail_iff (s : State) : rxAvail s = true ↔ s.rxq ≠ [] := by
  simp [rxAvail]

@[simp] theorem rxPop_nil {s : State} (h : s.rxq = []) (rest : Byte → State → Result) :
    rxPop s rest = .refused .rxPopEmpty := by
  simp [rxPop, h]

theorem rxPop_cons {s : State} {b : Byte} {q : List Byte} (h : s.rxq = b :: q)
    (rest : Byte → State → Result) : rxPop s rest = rest b (s.setRxq q) := by
  simp [rxPop, h]

/-- A pop that leads to a next state took the head of the stream. -/
theorem rxPop_next {s t : State} {rest : Byte → State → Result} (h : rxPop s rest = .next t) :
    ∃ b q, s.rxq = b :: q ∧ rest b (s.setRxq q) = .next t := by
  unfold rxPop at h
  split at h
  · cases h
  · exact ⟨_, _, ‹_›, h⟩

theorem discardByte_cons {s : State} {b : Byte} {q : List Byte} (h : s.rxq = b :: q) :
    discardByte s = .next ((s.setRxq q).setPhase .fade) :=
  rxPop_cons h _

theorem openFrame_cons {s : State} {b : Byte} {q : List Byte} (m : Byte) (h : s.rxq = b :: q) :
    openFrame m s = .next ((((s.setRxq q).setSof m).setPcnt payloadLen).setPhase .payload) :=
  rxPop_cons h _

theorem consumePayload_last {s : State} {b : Byte} {q : List Byte} (h : s.rxq = b :: q)
    (h1 : s.pcnt = 1) : consumePayload s =
      .next ((((s.setRxq q).setPcnt 0).setMask (extract s.sof)).setPhase .fade) := by
  rw [consumePayload, rxPop_cons h, if_pos (by rw [h1]; decide), if_pos h1]

theorem consumePayload_more {s : State} {b : Byte} {q : List Byte} (h : s.rxq = b :: q)
    (hp : pcntInFrame s.pcnt = true) (h1 : s.pcnt ≠ 1) :
    consumePayload s = .next ((s.setRxq q).setPcnt (s.pcnt - 1)) := by
  rw [consumePayload, rxPop_cons h, if_pos hp, if_neg h1]

/-- DROP takes one byte and goes to FADE (R122). -/
theorem discardByte_next {s t : State} (h : discardByte s = .next t) :
    ∃ b q, s.rxq = b :: q ∧ t = (s.setRxq q).setPhase .fade := by
  obtain ⟨b, q, hq, h⟩ := rxPop_next h
  exact ⟨b, q, hq, by simpa using h.symm⟩

/-- SOF takes one byte and opens a frame (R123). -/
theorem openFrame_next {m : Byte} {s t : State} (h : openFrame m s = .next t) :
    ∃ b q, s.rxq = b :: q ∧
      t = (((s.setRxq q).setSof m).setPcnt payloadLen).setPhase .payload := by
  obtain ⟨b, q, hq, h⟩ := rxPop_next h
  exact ⟨b, q, hq, by simpa using h.symm⟩

/-- PLD takes one byte of a frame: the last commits the mask, another counts down (R125). -/
theorem consumePayload_next {s t : State} (h : consumePayload s = .next t) :
    ∃ b q, s.rxq = b :: q ∧ pcntInFrame s.pcnt = true ∧
      ((s.pcnt = 1 ∧ t = (((s.setRxq q).setPcnt 0).setMask (extract s.sof)).setPhase .fade) ∨
       (s.pcnt ≠ 1 ∧ t = (s.setRxq q).setPcnt (s.pcnt - 1))) := by
  obtain ⟨b, q, hq, h⟩ := rxPop_next h
  by_cases hp : pcntInFrame s.pcnt = true
  · rw [if_pos hp] at h
    refine ⟨b, q, hq, hp, ?_⟩
    by_cases h1 : s.pcnt = 1
    · rw [if_pos h1] at h
      exact .inl ⟨h1, by simpa using h.symm⟩
    · rw [if_neg h1] at h
      exact .inr ⟨h1, by simpa using h.symm⟩
  · rw [if_neg hp] at h
    cases h

/-- 1 to 13, as numbers (R28). -/
theorem pcntInFrame_iff (n : BitVec 4) : pcntInFrame n = true ↔ 1 ≤ n.toNat ∧ n.toNat ≤ 13 := by
  simp [pcntInFrame, BitVec.le_def]

/-- 0x30 to 0x6F, as numbers (R82). -/
theorem isMarker_toNat {b : Byte} (h : isMarker b = true) : 0x30 ≤ b.toNat ∧ b.toNat ≤ 0x6F := by
  simpa [isMarker, BitVec.le_def] using h

/-- Of a marker, `extract` is the subtraction (R83). -/
theorem extract_marker {b : Byte} (h : isMarker b = true) : extract b = b - markerLo := by
  simp [extract, h]

/-! ## Reset and the environment -/

@[simp] theorem assertReset_cfg (s : State) : (assertReset s).cfg = s.cfg := rfl
@[simp] theorem assertReset_mask (s : State) : (assertReset s).mask = s.cfg.resetMask := rfl
@[simp] theorem assertReset_raw (s : State) : (assertReset s).raw = s.cfg.resetRaw := rfl
@[simp] theorem assertReset_cor (s : State) : (assertReset s).cor = PixelBuffer.fill Pixel.black := rfl
@[simp] theorem assertReset_phase (s : State) : (assertReset s).phase = .poll := rfl
@[simp] theorem assertReset_pcnt (s : State) : (assertReset s).pcnt = 0 := rfl
@[simp] theorem assertReset_sof (s : State) : (assertReset s).sof = 0x00 := rfl
@[simp] theorem assertReset_rxq (s : State) : (assertReset s).rxq = s.rxq := rfl
@[simp] theorem assertReset_txlog (s : State) : (assertReset s).txlog = [] := rfl
@[simp] theorem assertReset_rxIdle (s : State) : (assertReset s).rxIdle = s.rxIdle := rfl
@[simp] theorem assertReset_inputs (s : State) : (assertReset s).inputs = s.inputs := rfl

@[simp] theorem applyEvent_rx (s : State) (b : Byte) :
    applyEvent s (.rx b) = s.setRxq (s.rxq ++ [b]) := rfl
@[simp] theorem applyEvent_idleLines (s : State) (b : Byte) :
    applyEvent s (.idleLines b) = s.setRxIdle b := rfl
@[simp] theorem applyEvent_rst (s : State) : applyEvent s .rst = assertReset s := rfl

theorem environment_nil {s : State} (h : s.inputs = []) : environment s = s := by
  simp [environment, h]

theorem environment_cons {s : State} {events : List EnvEvent} {rest : List (List EnvEvent)}
    (h : s.inputs = events :: rest) :
    environment s = events.foldl applyEvent (s.setInputs rest) := by
  simp [environment, h]

/-- What every event of the environment keeps, the environment keeps, provided using up an entry of
`inputs` keeps it. -/
theorem environment_keeps {P : State → Prop} (hinputs : ∀ s v, P s → P (s.setInputs v))
    (hevent : ∀ s e, P s → P (applyEvent s e)) {s : State} (h : P s) : P (environment s) := by
  have events_keep : ∀ (es : List EnvEvent) (t : State), P t → P (es.foldl applyEvent t) := by
    intro es
    induction es with
    | nil => exact fun _ ht => ht
    | cons e es ih => exact fun t ht => ih (applyEvent t e) (hevent t e ht)
  unfold environment
  split
  · exact h
  · exact events_keep _ _ (hinputs s _ h)

@[simp] theorem thenEnvironment_next (t : State) : thenEnvironment (.next t) = .next (environment t) := rfl
@[simp] theorem thenEnvironment_fault (r : Fault) : thenEnvironment (.fault r) = .fault r := rfl
@[simp] theorem thenEnvironment_refused (r : Refusal) : thenEnvironment (.refused r) = .refused r := rfl

/-- The environment follows an operation that gave a next state, and nothing else. -/
theorem thenEnvironment_eq_next {r : Result} {t : State} (h : thenEnvironment r = .next t) :
    ∃ u, r = .next u ∧ t = environment u := by
  cases r with
  | next u => exact ⟨u, rfl, by simpa using h.symm⟩
  | fault r => cases r
  | refused r => cases h

end Sys2Proof.Machine
end

