-- ==== Sys2Proof/Laws/PerInstr.lean ====
section
/-! SUPPORT. For each constructor: its encoding lies in the row of spec/opcode_table.json that bears its
mnemonic (spec/30_encoding.md R89). -/

namespace Sys2Proof.Laws.EncodesItsRow

/-- A well-formed operation is encoded as a word that its own row selects. -/
def Statement (i : Instr) : Prop :=
  i.wellFormed = true → ∃ row ∈ operationMap, row.mnemonic = i.mnemonic ∧ row.selects (encode i) = true

/-- The row is found by its place in the table. -/
theorem of_row (i : Instr) (k : Nat) (hk : k < operationMap.length)
    (hm : (operationMap[k]).mnemonic = i.mnemonic)
    (hs : i.wellFormed = true → (operationMap[k]).selects (encode i) = true) : Statement i :=
  fun h => ⟨operationMap[k], List.getElem_mem hk, hm, hs h⟩

theorem idle : Statement .idle := of_row _ 0 (by decide) rfl (by decide)
theorem drop00 (b : Byte) : Statement (.drop00 b) :=
  of_row _ 1 (by decide) rfl (by revert b; decide +kernel)
theorem drop20 (b : Byte) : Statement (.drop20 b) :=
  of_row _ 2 (by decide) rfl (by revert b; decide +kernel)
theorem sof30 (b : Byte) : Statement (.sof30 b) :=
  of_row _ 3 (by decide) rfl (by revert b; decide +kernel)
theorem sof40 (b : Byte) : Statement (.sof40 b) :=
  of_row _ 4 (by decide) rfl (by revert b; decide +kernel)
theorem sof60 (b : Byte) : Statement (.sof60 b) :=
  of_row _ 5 (by decide) rfl (by revert b; decide +kernel)
theorem drop70 (b : Byte) : Statement (.drop70 b) :=
  of_row _ 6 (by decide) rfl (by revert b; decide +kernel)
theorem drop80 (b : Byte) : Statement (.drop80 b) :=
  of_row _ 7 (by decide) rfl (by revert b; decide +kernel)
theorem wait : Statement .wait := of_row _ 8 (by decide) rfl (by decide)
theorem pld (p : Byte) : Statement (.pld p) :=
  of_row _ 9 (by decide) rfl (by revert p; decide +kernel)
theorem fade : Statement .fade := of_row _ 10 (by decide) rfl (by decide)
theorem assign : Statement .assign := of_row _ 11 (by decide) rfl (by decide)
theorem correct : Statement .correct := of_row _ 12 (by decide) rfl (by decide)
theorem submit : Statement .submit := of_row _ 13 (by decide) rfl (by decide)
theorem delay : Statement .delay := of_row _ 14 (by decide) rfl (by decide)
theorem illegal : Statement .illegal := of_row _ 15 (by decide) rfl (by decide)

end Sys2Proof.Laws.EncodesItsRow
end

