-- ==== Sys2Proof/Laws/Step.lean ====
section
/-! SUPPORT. What an operation and a step can do: one inversion lemma each. -/

namespace Sys2Proof.Machine

/-- Everything an operation can do when it gives a next state (R121 to R125, R143, R151, R153, R154,
R172). -/
theorem exec_next_cases {i : Instr} {s t : State} (h : exec i s = .next t) :
    (i = .idle ∧ t = s.setPhase .fade) ∨
    ((∃ c, i = .drop00 c ∨ i = .drop20 c ∨ i = .drop70 c ∨ i = .drop80 c) ∧
      ∃ b q, s.rxq = b :: q ∧ t = (s.setRxq q).setPhase .fade) ∨
    (∃ m, (i = .sof30 m ∨ i = .sof40 m ∨ i = .sof60 m) ∧
      ∃ b q, s.rxq = b :: q ∧
        t = (((s.setRxq q).setSof m).setPcnt payloadLen).setPhase .payload) ∨
    (i = .wait ∧ t = s) ∨
    ((∃ p, i = .pld p) ∧ ∃ b q, s.rxq = b :: q ∧ pcntInFrame s.pcnt = true ∧
      ((s.pcnt = 1 ∧ t = (((s.setRxq q).setPcnt 0).setMask (extract s.sof)).setPhase .fade) ∨
       (s.pcnt ≠ 1 ∧ t = (s.setRxq q).setPcnt (s.pcnt - 1)))) ∨
    (i = .fade ∧ t = (s.setRaw (fadeBuffer s.cfg.fadeRate s.raw)).setPhase .assign) ∨
    (i = .assign ∧ t = (s.setRaw (assignZones s.cfg.zones s.mask s.raw)).setPhase .correct) ∨
    (i = .correct ∧ t = (s.setCor (correctBuffer s.cfg s.raw)).setPhase .submit) ∨
    (i = .submit ∧ t = (s.setTxlog (s.txlog ++ [s.cor])).setPhase .delay) ∨
    (i = .delay ∧ t = s.setPhase .poll) := by
  cases i with
  | idle => cases h; simp
  | drop00 c => have := discardByte_next h; simpa using this
  | drop20 c => have := discardByte_next h; simpa using this
  | sof30 m => have := openFrame_next h; simpa using this
  | sof40 m => have := openFrame_next h; simpa using this
  | sof60 m => have := openFrame_next h; simpa using this
  | drop70 c => have := discardByte_next h; simpa using this
  | drop80 c => have := discardByte_next h; simpa using this
  | wait => cases h; simp
  | pld p => have := consumePayload_next h; simpa using this
  | fade => cases h; simp
  | assign => cases h; simp
  | correct => cases h; simp
  | submit => cases h; simp [txSubmit]
  | delay => cases h; simp
  | illegal => cases h

/-- A step that gives a next state ran the selected operation, and then the environment. -/
theorem step_next {s t : State} (h : step s = .next t) :
    ∃ i u, selected s = some i ∧ exec i s = .next u ∧ t = environment u := by
  unfold step at h
  split at h
  · obtain ⟨u, hu, ht⟩ := thenEnvironment_eq_next h
    exact ⟨_, u, ‹_›, hu, ht⟩
  · cases h

/-- A step of the selected operation. -/
theorem step_of_selected {s : State} {i : Instr} (h : selected s = some i) :
    step s = thenEnvironment (exec i s) := by
  simp [step, h]

@[simp] theorem steps_zero (s : State) : steps 0 s = .next s := rfl

/-- The first step of a run, where it gives a next state. -/
theorem steps_succ {s u : State} (k : Nat) (h : step s = .next u) : steps (k + 1) s = steps k u := by
  simp [steps, h]

/-- The host's run of `k` steps is `steps k`. -/
theorem core_run_eq_steps (k : Nat) (s : State) : Sys2Proof.core.run k s = steps k s := by
  induction k generalizing s with
  | zero => rfl
  | succ k ih =>
    simp only [Host.Core.run, steps]
    unfold core
    dsimp only
    cases step s with
    | next t => exact ih t
    | fault r => rfl
    | refused r => rfl

/-- Runs compose. -/
theorem steps_add (m n : Nat) {s t : State} (h : steps m s = .next t) :
    steps (m + n) s = steps n t := by
  induction m generalizing s with
  | zero => cases h; rw [Nat.zero_add]
  | succ m ih =>
    cases hs : step s with
    | next u =>
      rw [steps_succ m hs] at h
      rw [Nat.succ_add, steps_succ (m + n) hs, ih h]
    | fault r => cases r
    | refused r => rw [steps, hs] at h; cases h

end Sys2Proof.Machine
end

