-- ==== Sys2Proof/Laws/Tick.lean ====
section
/-! SUPPORT. What the environment does while `rst` is not asserted: bytes are appended, the idle lines
change, one entry of `inputs` is used up. -/

namespace Sys2Proof.Machine

@[simp] theorem arrivals_nil : arrivals [] = [] := rfl

theorem arrivals_append (xs ys : List (List EnvEvent)) :
    arrivals (xs ++ ys) = arrivals xs ++ arrivals ys := by
  simp [arrivals]

@[simp] theorem noReset_nil : noReset [] = true := rfl

theorem noReset_append (xs ys : List (List EnvEvent)) :
    noReset (xs ++ ys) = (noReset xs && noReset ys) := by
  simp [noReset]

/-- Events without a reset append their bytes in order and may change the idle lines. -/
theorem foldl_applyEvent (events : List EnvEvent) (s : State)
    (h : events.all (· != .rst) = true) :
    ∃ x, events.foldl applyEvent s = (s.setRxq (s.rxq ++ events.filterMap arrivingByte)).setRxIdle x := by
  induction events generalizing s with
  | nil => exact ⟨s.rxIdle, by simp [State.setRxq, State.setRxIdle]⟩
  | cons e es ih =>
    rw [List.all_cons, Bool.and_eq_true] at h
    obtain ⟨x, hx⟩ := ih (applyEvent s e) h.2
    refine ⟨x, ?_⟩
    rw [List.foldl_cons, hx]
    cases e with
    | rx b => simp [arrivingByte, State.setRxq, State.setRxIdle]
    | idleLines b => rw [List.filterMap_cons_none rfl]; simp [State.setRxq, State.setRxIdle]
    | rst => exact absurd h.1 (by decide)

/-- What the environment does between two operations when it does not reset. -/
theorem environment_noReset (s : State) (h : noReset (s.inputs.take 1) = true) :
    ∃ x, environment s =
      ((s.setRxq (s.rxq ++ arrivals (s.inputs.take 1))).setRxIdle x).setInputs (s.inputs.drop 1) := by
  cases hi : s.inputs with
  | nil =>
    refine ⟨s.rxIdle, (environment_nil hi).trans ?_⟩
    obtain ⟨_, _, _, _, _, _, _, _, _, _, inputs⟩ := s
    subst hi
    simp [State.setRxq, State.setRxIdle, State.setInputs]
  | cons events rest =>
    rw [hi] at h
    obtain ⟨x, hx⟩ := foldl_applyEvent events (s.setInputs rest) (by simpa [noReset] using h)
    refine ⟨x, ?_⟩
    rw [environment_cons hi, hx]
    simp [arrivals, State.setRxq, State.setRxIdle, State.setInputs]

end Sys2Proof.Machine
end

