-- ==== Sys2Proof/Tests/Slice0.lean ====
section
/-! SUPPORT. Tests on fixed values, with expected results from spec/95_test_vectors.md or worked out by
hand from the rule named, and for every statement with hypotheses a witness that meets them. -/

open Sys2Proof Sys2Proof.Machine

namespace Sys2Proof.Tests

/-! ## Helpers -/

/-- The reset state with another phase, stream, count and latch. -/
def st (phase : Phase) (rxq : List Byte) (pcnt : BitVec 4 := 0) (sof : Byte := 0x00) : State :=
  { State.reset with phase := phase, rxq := rxq, pcnt := pcnt, sof := sof }

/-- The answer is a next state with the property. -/
def nextWith (r : Result) (p : State → Bool) : Bool :=
  match r with
  | .next t => p t
  | .fault _ => false
  | .refused _ => false

/-- The answer is the refusal. -/
def refusedWith (r : Result) (why : Refusal) : Bool :=
  match r with
  | .next _ => false
  | .fault _ => false
  | .refused w => decide (w = why)

/-- A buffer's pixels written as runs, in the notation of spec/95_test_vectors.md. -/
def runs (l : List (Nat × Pixel)) : List Pixel := l.flatMap fun (n, p) => List.replicate n p

/-! ## Ill-formed terms are refused (R85), on each side of each range -/

theorem test_wf_drop00_above : Instr.wellFormed (.drop00 0x20) = false := by decide
theorem test_wf_drop20_below : Instr.wellFormed (.drop20 0x1F) = false := by decide
theorem test_wf_drop20_above : Instr.wellFormed (.drop20 0x30) = false := by decide
theorem test_wf_sof30_below : Instr.wellFormed (.sof30 0x2F) = false := by decide
theorem test_wf_sof30_above : Instr.wellFormed (.sof30 0x40) = false := by decide
theorem test_wf_sof40_below : Instr.wellFormed (.sof40 0x3F) = false := by decide
theorem test_wf_sof40_above : Instr.wellFormed (.sof40 0x60) = false := by decide
theorem test_wf_sof60_below : Instr.wellFormed (.sof60 0x5F) = false := by decide
theorem test_wf_sof60_above : Instr.wellFormed (.sof60 0x70) = false := by decide
theorem test_wf_drop70_below : Instr.wellFormed (.drop70 0x6F) = false := by decide
theorem test_wf_drop70_above : Instr.wellFormed (.drop70 0x80) = false := by decide
theorem test_wf_drop80_below : Instr.wellFormed (.drop80 0x7F) = false := by decide

/-! ## Illegal configurations are refused (R9) -/

/-- The reference rows with another last row. -/
def lastZone (z : Zone) : List Zone := (Config.referenceZones.take 5).concat z

/-- The reference record is legal. -/
theorem test_legal_reference : ConfigLegal Config.referenceZones Config.referenceGamma 64 :=
  Config.reference.legal

/-- Two zones that overlap, at pixel 49. -/
theorem test_legal_overlap :
    ¬ ConfigLegal (lastZone ⟨1, 49, 60, Config.marqueeColor⟩) Config.referenceGamma 64 :=
  fun h => absurd (h.2.2.2.1 49 (by decide)) (by decide)

/-- A pixel in no zone, pixel 50. -/
theorem test_legal_hole :
    ¬ ConfigLegal (lastZone ⟨1, 51, 60, Config.marqueeColor⟩) Config.referenceGamma 64 :=
  fun h => absurd (h.2.2.2.1 50 (by decide)) (by decide)

/-- A zone past the end of the strip. -/
theorem test_legal_past_end :
    ¬ ConfigLegal (lastZone ⟨1, 50, 61, Config.marqueeColor⟩) Config.referenceGamma 64 :=
  fun h => absurd h.2.2.1 (by decide)

/-- One bit number twice. -/
theorem test_legal_bit_twice :
    ¬ ConfigLegal (lastZone ⟨0, 50, 60, Config.marqueeColor⟩) Config.referenceGamma 64 :=
  fun h => absurd h.2.1 (by decide)

/-- Five rows. -/
theorem test_legal_five_rows :
    ¬ ConfigLegal (Config.referenceZones.take 5) Config.referenceGamma 64 :=
  fun h => absurd h.1 (by decide)

/-- A gamma table that decreases after entry 5. -/
theorem test_legal_gamma_decreases :
    ¬ ConfigLegal Config.referenceZones (Config.referenceGamma.set 5 9) 64 :=
  fun h => absurd (h.2.2.2.2.2.1 5 (by decide)) (by decide)

/-- A gamma table that does not begin with 0. -/
theorem test_legal_gamma_begin :
    ¬ ConfigLegal Config.referenceZones (List.replicate 255 1 ++ [255]) 64 :=
  fun h => absurd h.2.2.2.2.2.2.1 (by decide)

/-- A gamma table that does not end with 255. -/
theorem test_legal_gamma_end :
    ¬ ConfigLegal Config.referenceZones (Config.referenceGamma.set 255 254) 64 :=
  fun h => absurd h.2.2.2.2.2.2.2.1 (by decide +kernel)

/-- A gamma table that is too short. -/
theorem test_legal_gamma_short :
    ¬ ConfigLegal Config.referenceZones (Config.referenceGamma.drop 1) 64 :=
  fun h => absurd h.2.2.2.2.1 (by decide +kernel)

/-- A fade rate of 0. -/
theorem test_legal_rate_zero : ¬ ConfigLegal Config.referenceZones Config.referenceGamma 0 :=
  fun h => absurd h.2.2.2.2.2.2.2.2 (by decide)

/-! ## Decoding: words written out from R89, spec/95_test_vectors.md section 2.1 -/

theorem test_decode_idle : decode 0b000010101010 = some .idle := by decide
theorem test_decode_drop00 : decode 0b000100011111 = some (.drop00 0x1F) := by decide
theorem test_decode_drop20 : decode 0b000100100000 = some (.drop20 0x20) := by decide
theorem test_decode_sof30 : decode 0b000100111001 = some (.sof30 0x39) := by decide
theorem test_decode_sof40 : decode 0b000101011111 = some (.sof40 0x5F) := by decide
theorem test_decode_sof60 : decode 0b000101100000 = some (.sof60 0x60) := by decide
theorem test_decode_drop70 : decode 0b000101111111 = some (.drop70 0x7F) := by decide
theorem test_decode_drop80 : decode 0b000110110000 = some (.drop80 0xB0) := by decide
theorem test_decode_wait : decode 0b001001000001 = some .wait := by decide
theorem test_decode_pld : decode 0b001111111111 = some (.pld 0xFF) := by decide
theorem test_decode_fade : decode 0b010000000000 = some .fade := by decide
theorem test_decode_assign : decode 0b011111111111 = some .assign := by decide
theorem test_decode_correct : decode 0b100111111111 = some .correct := by decide
theorem test_decode_submit : decode 0b101111111111 = some .submit := by decide
theorem test_decode_delay : decode 0b110111111111 = some .delay := by decide
theorem test_decode_illegal : decode 0b111111111111 = some .illegal := by decide

/-- A number with a bit above bit 11 is rejected by name. -/
theorem test_decode_too_wide :
    decodeNat 0x1130 = .error .tooWide ∧ decodeTableWord 16 0x1130 = none ∧
    decodeTableWord 12 0x1130 = some (.sof30 0x30) := by decide

/-- Every word of spec/opcode_table.json's rows is selected by one row only. -/
theorem test_rows_disjoint : operationMap.Pairwise fun a b =>
    (a.pattern &&& (a.mask &&& b.mask)) ≠ (b.pattern &&& (a.mask &&& b.mask)) := by decide

/-- Each row's pattern, placed at reset, runs as the first operation; the last row is refused (R90). -/
theorem test_first_operation :
    ([0x000, 0x100, 0x120, 0x130, 0x140, 0x160, 0x170, 0x180, 0x200, 0x300, 0x400, 0x600, 0x800, 0xA00,
      0xC00].map fun w => nextWith (step (State.reset.withFetchWord 16 w)) fun _ => true) =
      List.replicate 15 true ∧
    refusedWith (step (State.reset.withFetchWord 16 0xE00)) .illegalPhase = true := by decide +kernel

/-- What withFetchWord places is what the next step selects. -/
theorem test_fetch_word :
    (operationMap.map fun r => (selected (State.reset.withFetchWord 12 r.pattern.toNat)).map (·.mnemonic)) =
      operationMap.map fun r => some r.mnemonic := by decide +kernel

/-! ## Marker, extraction: spec/95_test_vectors.md section 2.1 -/

theorem test_marker_edges :
    [0x2F, 0x30, 0x6F, 0x70, 0xB0, 0xEF].map isMarker = [false, true, true, false, false, false] := by
  decide

theorem test_extract :
    [0x30, 0x31, 0x39, 0x3F, 0x40, 0x41, 0x4F, 0x50, 0x5F, 0x60, 0x6F].map extract =
      [0x00, 0x01, 0x09, 0x0F, 0x10, 0x11, 0x1F, 0x20, 0x2F, 0x30, 0x3F] := by decide

/-! ## One step of each operation: spec/95_test_vectors.md sections 2.2 to 2.8 -/

/-- Section 2.2 line 1. -/
theorem test_idle : step { st .poll [] with mask := 0x15 } = .next { st .fade [] with mask := 0x15 } := rfl

/-- R122 at the edges of the first row. -/
theorem test_drop00 : step (st .poll [0x1F]) = .next (st .fade []) := rfl

/-- A byte just below the range, and the marker behind it waits. -/
theorem test_drop20 : step (st .poll [0x2F, 0x31]) = .next (st .fade [0x31]) := rfl

theorem test_drop70 : step (st .poll [0x70]) = .next (st .fade []) := rfl

/-- The comparison is unsigned on all eight bits. -/
theorem test_drop80 : step (st .poll [0xB0, 0x00]) = .next (st .fade [0x00]) := rfl

/-- SOF does not touch `mask`. -/
theorem test_sof30 : step { st .poll [0x30, 0x00] with mask := 0x3F } =
    .next { st .payload [0x00] 13 0x30 with mask := 0x3F } := rfl

theorem test_sof40 : step (st .poll [0x41]) = .next (st .payload [] 13 0x41) := rfl

theorem test_sof60 : step (st .poll [0x6F]) = .next (st .payload [] 13 0x6F) := rfl

/-- WAIT changes nothing. -/
theorem test_wait : step (st .payload [] 5 0x41) = .next (st .payload [] 5 0x41) := rfl

/-- A marker value as payload is payload. -/
theorem test_pld_more : step (st .payload [0x31, 0x32] 2 0x30) = .next (st .payload [0x32] 1 0x30) := rfl

/-- Section 2.2 line 11: the commit overwrites every bit. -/
theorem test_pld_last : nextWith (step { st .payload [0xFF] 1 0x30 with mask := 0x3F })
    (fun t => decide (t = { st .fade [] 0 0x30 with mask := 0x00 })) = true := by decide +kernel

/-- Section 2.4, single channels at the reference rate and at others. -/
theorem test_fade_channels :
    [0, 1, 2, 3, 4, 5, 63, 64, 127, 128, 200, 254, 255].map (fadeChannel 64) =
      [0, 0, 1, 2, 3, 3, 47, 48, 95, 96, 150, 190, 191] ∧
    [1, 32, 64, 128, 255].map (fun rate => fadeChannel rate 128) = [127, 112, 96, 64, 0] := by decide

/-- Section 2.4, whole buffer. -/
theorem test_fade :
    nextWith (step { st .fade [] with raw := PixelBuffer.fill ⟨200, 100, 50⟩ }) (fun t => decide
      (t.raw = PixelBuffer.fill ⟨150, 75, 37⟩ ∧ t.phase = .assign ∧ t.mask = 0x00)) = true := by decide +kernel

/-- Section 2.3: each bit alone, several bits, and the reserved bits, over a buffer of (7,7,7). -/
theorem test_assign :
    let seven := (⟨7, 7, 7⟩ : Pixel)
    let marquee := (⟨255, 128, 0⟩ : Pixel)
    let bass := (⟨0, 64, 255⟩ : Pixel)
    ([0x00, 0x01, 0x02, 0x04, 0x08, 0x10, 0x20, 0x2A, 0xC0, 0xFF].map fun m =>
      (assignZones Config.referenceZones m (PixelBuffer.fill seven)).pixels) =
    [ runs [(60, seven)],
      runs [(10, marquee), (50, seven)],
      runs [(50, seven), (10, marquee)],
      runs [(10, seven), (10, marquee), (40, seven)],
      runs [(40, seven), (10, marquee), (10, seven)],
      runs [(20, seven), (10, bass), (30, seven)],
      runs [(30, seven), (10, bass), (20, seven)],
      runs [(30, seven), (10, bass), (20, marquee)],
      runs [(60, seven)],
      runs [(20, marquee), (20, bass), (20, marquee)] ] := by decide +kernel

/-- ASSIGN keeps `mask` and `cor` and goes to CORRECT. -/
theorem test_assign_step : nextWith (step { st .assign [] with mask := 0x31 }) (fun t =>
    decide (t.mask = 0x31 ∧ t.phase = .correct ∧ t.cor = PixelBuffer.fill Pixel.black)) = true := by
  decide +kernel

/-- Section 2.5, entries of the table. -/
theorem test_gamma :
    [0, 1, 27, 28, 36, 37, 51, 52, 64, 96, 127, 128, 129, 143, 191, 200, 253, 254, 255].map
      Config.reference.gammaAt =
    [0, 0, 0, 1, 1, 1, 3, 3, 5, 17, 36, 37, 38, 50, 114, 129, 249, 252, 255] := by decide +kernel

/-- Section 2.5, a pixel's colour, whatever `cor` held. -/
theorem test_correct :
    nextWith (step { st .correct [] with
        raw := PixelBuffer.fill ⟨150, 75, 37⟩, cor := PixelBuffer.fill ⟨9, 9, 9⟩ }) (fun t => decide
      (t.cor = PixelBuffer.fill ⟨58, 8, 1⟩ ∧ t.raw = PixelBuffer.fill ⟨150, 75, 37⟩ ∧
        t.phase = .submit)) = true := by decide +kernel

/-- Section 2.6: an all-black frame is a frame; the older frame stays first. -/
theorem test_submit :
    nextWith (step { st .submit [] with txlog := [PixelBuffer.fill ⟨1, 2, 3⟩] }) (fun t => decide
      (t.txlog = [PixelBuffer.fill ⟨1, 2, 3⟩, PixelBuffer.fill Pixel.black] ∧ t.phase = .delay)) = true := by
  decide +kernel

/-- Section 2.6: bytes wait. -/
theorem test_delay : step (st .delay [0x31]) = .next (st .poll [0x31]) := rfl

theorem test_illegal : step (st .unused [0x31]) = .refused .illegalPhase := rfl

/-- R203 and R54: pixel 0 is in the top 24 bits and red in the top 8 of those. -/
theorem test_tx_frame :
    (packFrame ⟨runs [(1, ⟨0xFF, 0x80, 0x01⟩), (58, Pixel.black), (1, ⟨0, 0, 0x7F⟩)], by decide⟩).toNat =
      0xFF8001 * 2 ^ 1416 + 0x7F := by decide +kernel

/-- Section 2.8: a reset in the middle of a frame leaves the queued bytes. -/
theorem test_reset_mid_frame :
    nextWith (step { st .payload [0x00, 0x00, 0x00] 6 0x41 with
        mask := 0x3F, raw := PixelBuffer.fill ⟨9, 9, 9⟩, inputs := [[.rst]] })
      (fun t => decide (t = st .poll [0x00, 0x00])) = true := by decide +kernel

/-! ## Witnesses: for each statement with hypotheses, inputs that meet them -/

theorem test_witness_DecodeAfterEncode :
    ∀ i ∈ [Instr.idle, .drop00 0x1F, .drop20 0x20, .sof30 0x3F, .sof40 0x40, .sof60 0x6F, .drop70 0x7F,
      .drop80 0xFF, .wait, .pld 0xFF, .fade, .assign, .correct, .submit, .delay, .illegal],
      i.wellFormed = true := by decide

/-- The clause of the bytes with bit 7 set. -/
theorem test_witness_MarkerRange : (0x80 : Byte).getLsbD 7 = true ∧ (0xFF : Byte).getLsbD 7 = true := by
  decide

theorem test_witness_ExtractionGateForm : isMarker 0x30 = true ∧ isMarker 0x6F = true := by decide

/-- Both clauses: an operation with a next state, and one refused. -/
theorem test_witness_StepRunsSelectedOperation :
    (decode (dispatchWord (st .poll [0x31])) = some (.sof30 0x31) ∧
      exec (.sof30 0x31) (st .poll [0x31]) = .next (st .payload [] 13 0x31)) ∧
    (decode (dispatchWord (st .payload [0x00] 0)) = some (.pld 0x00) ∧
      exec (.pld 0x00) (st .payload [0x00] 0) = .refused .pcntOutOfRange) := ⟨⟨rfl, rfl⟩, ⟨rfl, rfl⟩⟩

/-- A stream with a head, for the clauses on one. -/
theorem test_witness_DispatchWordSamplesPorts : (st .poll [0x31]).rxq = (0x31 : Byte) :: [] := rfl

/-- The three shapes of `inputs`. -/
theorem test_witness_EnvironmentActsBetweenOperations :
    (st .poll []).inputs = [] ∧
    ({ st .poll [] with inputs := [[]] } : State).inputs = [] :: [] ∧
    ({ st .poll [] with inputs := [[.rx 0x31, .rst]] } : State).inputs =
      (EnvEvent.rx 0x31 :: [.rst]) :: [] := ⟨rfl, rfl, rfl⟩

/-- One state for each of the eleven rows; the row `pcnt >= 2` at both its ends. -/
theorem test_witness_PhaseTransitionTable :
    ((st .poll []).phase = .poll ∧ (st .poll []).rxq = []) ∧
    ((st .poll [0x2F]).phase = .poll ∧ (st .poll [0x2F]).rxq = (0x2F : Byte) :: [] ∧
      isMarker 0x2F = false) ∧
    ((st .poll [0x30]).phase = .poll ∧ (st .poll [0x30]).rxq = (0x30 : Byte) :: [] ∧
      isMarker 0x30 = true) ∧
    ((st .payload []).phase = .payload ∧ (st .payload []).rxq = []) ∧
    (∀ n ∈ [(2 : BitVec 4), 13], (st .payload [0x41] n).phase = .payload ∧
      (st .payload [0x41] n).rxq = (0x41 : Byte) :: [] ∧
      2 ≤ (st .payload [0x41] n).pcnt.toNat ∧ (st .payload [0x41] n).pcnt.toNat ≤ 13) ∧
    ((st .payload [0x41] 1).phase = .payload ∧ (st .payload [0x41] 1).rxq = (0x41 : Byte) :: [] ∧
      (st .payload [0x41] 1).pcnt.toNat = 1) ∧
    (st .fade []).phase = .fade ∧ (st .assign []).phase = .assign ∧ (st .correct []).phase = .correct ∧
    (st .submit []).phase = .submit ∧ (st .delay []).phase = .delay := by decide

/-- POLL with nothing to read; a byte arrives just after the sample. -/
theorem test_witness_IdleGoesToRender :
    ({ st .poll [] with inputs := [[.rx 0x31]] } : State).phase = .poll ∧
    ({ st .poll [] with inputs := [[.rx 0x31]] } : State).rxq = [] ∧
    ({ st .poll [] with inputs := [[.rx 0x31]] } : State).inputs = [.rx 0x31] :: [] := ⟨rfl, rfl, rfl⟩

/-- A rejected byte at each edge of the two rejected ranges. -/
theorem test_witness_DropDiscardsOneByte :
    ∀ b ∈ [(0x00 : Byte), 0x2F, 0x70, 0xFF], (st .poll [b]).phase = .poll ∧
      (st .poll [b]).rxq = b :: [] ∧ isMarker b = false := by decide

/-- A marker at each edge of the three rows, and the operation selected for it. -/
theorem test_witness_SofOpensFrame :
    (∀ b ∈ [(0x30 : Byte), 0x3F, 0x40, 0x5F, 0x60, 0x6F], (st .poll [b]).phase = .poll ∧
      (st .poll [b]).rxq = b :: [] ∧ isMarker b = true) ∧
    selected (st .poll [0x3F]) = some (.sof30 0x3F) ∧ selected (st .poll [0x40]) = some (.sof40 0x40) ∧
    selected (st .poll [0x6F]) = some (.sof60 0x6F) := by decide +kernel

/-- A stalled state whose environment does nothing, and one whose environment sends a byte. -/
theorem test_witness_WaitHolds :
    ((st .payload [] 13 0x30).Stalled ∧ (st .payload [] 13 0x30).inputs = []) ∧
    ({ st .payload [] 1 0x30 with inputs := [[.rx 0x41]] } : State).Stalled ∧
    ({ st .payload [] 1 0x30 with inputs := [[.rx 0x41]] } : State).inputs = [.rx 0x41] :: [] :=
  ⟨⟨⟨rfl, rfl⟩, rfl⟩, ⟨rfl, rfl⟩, rfl⟩

/-- The last payload byte, and another at both ends of the count. -/
theorem test_witness_PldConsumesOnePayloadByte :
    ((st .payload [0x41] 1 0x30).phase = .payload ∧ (st .payload [0x41] 1 0x30).rxq = (0x41 : Byte) :: [] ∧
      (st .payload [0x41] 1 0x30).pcnt.toNat = 1) ∧
    (isMarker 0x30 = true ∧ isMarker 0x6F = true) ∧
    (∀ n ∈ [(2 : BitVec 4), 13], (st .payload [0x41] n).rxq = (0x41 : Byte) :: [] ∧
      2 ≤ (st .payload [0x41] n).pcnt.toNat ∧ (st .payload [0x41] n).pcnt.toNat ≤ 13) := by decide

/-- The three counts no frame has. -/
theorem test_witness_PldRefusesImpossibleCount :
    ∀ n ∈ [(0 : BitVec 4), 14, 15], (st .payload [0x41] n).rxq = (0x41 : Byte) :: [] ∧
      ((st .payload [0x41] n).pcnt.toNat = 0 ∨ 13 < (st .payload [0x41] n).pcnt.toNat) := by decide

/-- An empty stream, and a popping operation that a step selects. -/
theorem test_witness_PopOfEmptyStreamRefused :
    (st .payload []).rxq = [] ∧
    selected (st .payload [0x41] 3) = some (.pld 0x41) ∧ rxPopPort (.pld 0x41) = true := ⟨rfl, rfl, rfl⟩

/-- The code's words at both ends, a state that holds it, and an operation that gives a next state. -/
theorem test_witness_UnusedPhaseRefused :
    DispatchWord.phaseBits 0xE00 = 0b111 ∧ DispatchWord.phaseBits 0xFFF = 0b111 ∧
    (st .unused []).phase = .unused ∧
    exec .delay (st .delay []) = .next (st .poll []) ∧ (st .delay []).phase ≠ .unused :=
  ⟨rfl, rfl, rfl, rfl, by decide⟩

theorem test_witness_FadeDecaysEveryChannel : (st .fade []).phase = .fade := rfl

/-- The slowest and the fastest rate, and channels that meet each clause's condition. -/
theorem test_witness_FadeLaws :
    (1 ≤ (1 : Byte).toNat ∧ 1 ≤ (255 : Byte).toNat) ∧
    (1 ≤ (1 : Channel).toNat ∧ 1 ≤ (255 : Channel).toNat) ∧
    ((0 : Channel).toNat ≤ 0 ∧ (255 : Channel).toNat ≤ 255) ∧
    (254 : Channel).toNat ≤ (255 : Channel).toNat := by decide

/-- The first and the last pixel of a lit and of an unlit zone. -/
theorem test_witness_AssignPaintsLitZones :
    (st .assign []).phase = .assign ∧
    (⟨0, 0, 10, Config.marqueeColor⟩ ∈ (st .assign []).cfg.zones ∧
      ∀ i ∈ [(0 : PixelIndex), 9], 0 ≤ i.val ∧ i.val < 10) ∧
    (⟨1, 50, 60, Config.marqueeColor⟩ ∈ (st .assign []).cfg.zones ∧
      ∀ i ∈ [(50 : PixelIndex), 59], 50 ≤ i.val ∧ i.val < 60) := by decide +kernel

theorem test_witness_AssignIgnoresReservedBits :
    ∀ k < 6, (0xC9 : BitVec 8).getLsbD k = ({ st .assign [] with mask := 0x09 } : State).mask.getLsbD k := by
  decide

/-- The table written backwards. -/
theorem test_witness_ZoneOrderImmaterial :
    Config.reference.zones.reverse.Perm Config.reference.zones := List.reverse_perm _

/-- A row and a pixel at each end of it, and a row of a bit number. -/
theorem test_witness_ZonesPartitionStrip :
    ⟨4, 20, 30, Config.bassColor⟩ ∈ Config.reference.zones ∧
    (∀ i ∈ [(20 : PixelIndex), 29], 20 ≤ i.val ∧ i.val < 30) ∧
    (⟨4, 20, 30, Config.bassColor⟩ : Zone).bit = 4 := by decide +kernel

theorem test_witness_CorrectRecomputesBuffer : (st .correct []).phase = .correct := rfl

theorem test_witness_GammaOfEveryLegalTable :
    (254 : Channel).toNat ≤ (255 : Channel).toNat ∧ (0 : Channel).toNat ≤ (0 : Channel).toNat := by decide

/-- The dark end, at its last input. -/
theorem test_witness_ReferenceGammaFacts : (27 : Channel).toNat ≤ 27 := by decide

theorem test_witness_SubmitAppendsCorrected : (st .submit []).phase = .submit := rfl

theorem test_witness_DelayReturnsToPoll : (st .delay []).phase = .delay := rfl

/-- A commit, a payload byte before the last, an operation that is not ASSIGN, an event that is not a reset. -/
theorem test_witness_MaskWrittenOnlyByCommit :
    (∃ t, exec (.pld 0x00) (st .payload [0x00] 1 0x31) = .next t ∧
      (st .payload [0x00] 1 0x31).pcnt.toNat = 1) ∧
    (∃ t, exec (.pld 0x00) (st .payload [0x00] 2 0x31) = .next t ∧
      ¬ ((∃ p, Instr.pld 0x00 = .pld p) ∧ (st .payload [0x00] 2 0x31).pcnt.toNat = 1)) ∧
    (exec .delay (st .delay []) = .next (st .poll []) ∧ Instr.delay ≠ .assign) ∧
    EnvEvent.rx 0x31 ≠ .rst := 
  ⟨⟨_, rfl, rfl⟩, ⟨_, rfl, fun h => absurd h.2 (by decide)⟩, ⟨rfl, by decide⟩, by decide⟩

/-- An operation that is none of the render's three. -/
theorem test_witness_RawTouchedOnlyByRender :
    exec .submit (st .submit []) = .next { st .delay [] with txlog := [PixelBuffer.fill Pixel.black] } ∧
    Instr.submit ≠ .fade ∧ Instr.submit ≠ .assign ∧ Instr.submit ≠ .correct :=
  ⟨rfl, by decide, by decide, by decide⟩

/-- An operation of each of the three kinds. -/
theorem test_witness_CorFeedsOnlyTheSink :
    (exec .delay (st .delay []) = .next (st .poll []) ∧ Instr.delay ≠ .correct ∧ Instr.delay ≠ .submit) ∧
    (∃ t, exec .correct (st .correct []) = .next t) ∧ (∃ t, exec .submit (st .submit []) = .next t) :=
  ⟨⟨rfl, by decide, by decide⟩, ⟨_, rfl⟩, ⟨_, rfl⟩⟩

/-- SUBMIT, and an operation that submits nothing. -/
theorem test_witness_OutputOnlyBySubmit :
    (∃ t, exec .submit (st .submit []) = .next t) ∧ exec .delay (st .delay []) = .next (st .poll []) :=
  ⟨⟨_, rfl⟩, rfl⟩

/-- An operation that pops and one that does not. -/
theorem test_witness_StreamReadHeadFirst :
    exec (.sof30 0x31) (st .poll [0x31, 0x00]) = .next (st .payload [0x00] 13 0x31) ∧
    exec .delay (st .delay [0x31]) = .next (st .poll [0x31]) := ⟨rfl, rfl⟩

theorem test_witness_ConfigurationNeverWritten : step (st .delay []) = .next (st .poll []) := rfl

theorem test_witness_PayloadValuesHaveNoEffect : (st .payload [0x31, 0x00] 13).phase = .payload := rfl

/-- A step that stays outside PAYLOAD and one that enters it. -/
theorem test_witness_LatchDeadOutsidePayload :
    ((st .delay []).phase ≠ .payload ∧ step (st .delay []) = .next (st .poll [])) ∧
    ((st .poll [0x31]).phase ≠ .payload ∧ step (st .poll [0x31]) = .next (st .payload [] 13 0x31) ∧
      (st .payload [] 13 0x31).phase = .payload) :=
  ⟨⟨by decide, rfl⟩, ⟨by decide, rfl, rfl⟩⟩

theorem test_witness_IdleLinesHaveNoEffect : step (st .poll []) = .next (st .fade []) := rfl

/-- An operation that is neither IDLE nor WAIT, selected and with a next state. -/
theorem test_witness_ArrivalsCommuteWithOperations :
    exec (.sof30 0x31) (st .poll [0x31]) = .next (st .payload [] 13 0x31) ∧
    selected (st .poll [0x31]) = some (.sof30 0x31) ∧ Instr.sof30 0x31 ≠ .idle ∧
    Instr.sof30 0x31 ≠ .wait := ⟨rfl, rfl, by decide, by decide⟩

theorem test_witness_ResetMeetsInvariants : State.reset.cfg.resetMask.toNat ≤ 0x3F := by decide

/-- A state with both invariants and a step from it, in the middle of a frame. -/
theorem test_witness_StepKeepsInvariants :
    (st .payload [0x00] 13 0x6F).SequencerInv ∧ (st .payload [0x00] 13 0x6F).MaskInv ∧
    step (st .payload [0x00] 13 0x6F) = .next (st .payload [] 12 0x6F) :=
  ⟨by decide, by decide, rfl⟩

/-- The reset state, and a state in the middle of a frame. -/
theorem test_witness_LoopRunsForever :
    State.reset.SequencerInv ∧ (st .payload [] 1 0x30).SequencerInv := ⟨by decide, by decide⟩

/-- WAIT in a stalled state, and an operation that is not WAIT. -/
theorem test_witness_OnlyWaitStandsStill :
    (selected (st .payload [] 1 0x30) = some .wait ∧
      exec .wait (st .payload [] 1 0x30) = .next (st .payload [] 1 0x30)) ∧
    (selected (st .delay []) = some .delay ∧ exec .delay (st .delay []) = .next (st .poll [])) :=
  ⟨⟨rfl, rfl⟩, ⟨rfl, rfl⟩⟩

/-- A stall over three steps in which only the idle lines change. -/
theorem test_witness_StallPersistsWithoutBytes :
    let s : State := { st .payload [] 1 0x30 with inputs := [[.idleLines 0x55], []] }
    s.Stalled ∧ noReset (s.inputs.take 3) = true ∧ arrivals (s.inputs.take 3) = [] := by
  refine ⟨⟨rfl, rfl⟩, ?_, ?_⟩ <;> decide

/-- An idle tick, a tick that drops a byte, and a tick with a frame, with a byte arriving meanwhile. -/
theorem test_witness_TickIsDecodeThenRender :
    (∀ c ∈ [(([] : List Byte), (0x00 : BitVec 8), 0, 6), ([0x0A], 0x00, 1, 6), (frameBytes 0x3F, 0x3F, 14, 19)],
      let s : State := { st .poll c.1 with inputs := [[.rx 0x31]] }
      s.phase = .poll ∧ decodeOfTick s.mask s.rxq = some (c.2.1, c.2.2.1) ∧
      c.2.2.2 = (if c.2.2.1 = frameLen then 19 else 6) ∧
      noReset (s.inputs.take c.2.2.2) = true) := by decide +kernel

/-- A frame of which only the marker is there, and one that lacks its last byte. -/
theorem test_witness_IncompleteFrameHangs :
    ∀ q ∈ [[(0x41 : Byte)], (frameBytes 0x3F).take 13],
      (st .poll q).phase = .poll ∧ decodeOfTick (st .poll q).mask (st .poll q).rxq = none ∧
      noReset (st .poll q).inputs = true ∧ arrivals (st .poll q).inputs = [] ∧
      (st .poll q).rxq.length ≤ 13 := by decide +kernel

/-- One byte missing and queued, and thirteen missing of which all arrive later. -/
theorem test_witness_HoldsLeaveNoTrace :
    (∀ s ∈ [st .payload [0x00] 1 0x30,
        { st .payload [] 13 0x6F with inputs := [] :: List.replicate 13 [.rx 0x41] }],
      s.phase = .payload ∧ 1 ≤ s.pcnt.toNat ∧ s.pcnt.toNat ≤ 13 ∧ noReset s.inputs = true ∧
      s.pcnt.toNat ≤ (s.rxq ++ arrivals s.inputs).length) := by decide +kernel

/-- A lit and an unlit pixel, and the two bounds on the number of ticks. -/
theorem test_witness_SilentTicksFadeToBlack :
    let s : State := { st .poll [] with mask := 0x01, inputs := [[.idleLines 0x31]] }
    s.phase = .poll ∧ s.rxq = [] ∧ noReset s.inputs = true ∧ arrivals s.inputs = [] ∧
    isLit s.mask (s.cfg.zoneOf 9) = true ∧ isLit s.mask (s.cfg.zoneOf 10) = false ∧
    1 ≤ 1 ∧ 255 ≤ 255 := by decide +kernel

theorem test_witness_ResetReleasesStall :
    ({ st .payload [] 5 0x41 with inputs := [[.rst]] } : State).Stalled ∧
    ({ st .payload [] 5 0x41 with inputs := [[.rst]] } : State).inputs = [.rst] :: [] :=
  ⟨⟨rfl, rfl⟩, rfl⟩

end Sys2Proof.Tests
end

section
/-! PROOF. Who writes and who reads `mask` (spec/10_state.md R25). -/

namespace Sys2Proof.Machine

/-- PLD at `pcnt` 1 commits the frame (R125). -/
theorem exec_pld_mask_of_pcnt_one {p : Byte} {s t : State} (h : exec (.pld p) s = .next t)
    (h1 : s.pcnt = 1) : t.mask = extract s.sof := by
  obtain ⟨b, q, -, -, ⟨-, rfl⟩ | ⟨hne, -⟩⟩ := consumePayload_next h
  · rfl
  · exact absurd h1 hne

/-- Every next state but a commit's has the old mask: no other operation calls `setMask`. -/
theorem exec_mask_of_not_commit {i : Instr} {s t : State} (h : exec i s = .next t)
    (hcommit : ¬ ((∃ p, i = .pld p) ∧ s.pcnt = 1)) : t.mask = s.mask := by
  rcases exec_next_cases h with ⟨-, rfl⟩ | ⟨-, b, q, -, rfl⟩ | ⟨m, -, b, q, -, rfl⟩ | ⟨-, rfl⟩ |
    ⟨hpld, b, q, -, -, ⟨h1, -⟩ | ⟨-, rfl⟩⟩ | ⟨-, rfl⟩ | ⟨-, rfl⟩ | ⟨-, rfl⟩ | ⟨-, rfl⟩ | ⟨-, rfl⟩
  · rfl
  · rfl
  · rfl
  · rfl
  · exact absurd ⟨hpld, h1⟩ hcommit
  all_goals rfl

/-- From another mask PLD does the same but for the mask; a commit overwrites it. -/
theorem consumePayload_setMask {s t : State} (m : BitVec 8) (h : consumePayload s = .next t) :
    ∃ m', consumePayload (s.setMask m) = .next (t.setMask m') := by
  obtain ⟨b, q, hq, hp, ⟨h1, rfl⟩ | ⟨h1, rfl⟩⟩ := consumePayload_next h
  · exact ⟨extract s.sof, consumePayload_last (s := s.setMask m) hq h1⟩
  · exact ⟨m, consumePayload_more (s := s.setMask m) hq hp h1⟩

/-- From another mask an operation other than ASSIGN does the same but for the mask. -/
theorem exec_setMask {i : Instr} {s t : State} (m : BitVec 8) (h : exec i s = .next t)
    (hi : i ≠ .assign) : ∃ m', exec i (s.setMask m) = .next (t.setMask m') := by
  rcases exec_next_cases h with ⟨rfl, rfl⟩ | ⟨⟨c, hdrop⟩, b, q, hq, rfl⟩ | ⟨c, hsof, b, q, hq, rfl⟩ |
    ⟨rfl, rfl⟩ | ⟨⟨p, rfl⟩, -⟩ | ⟨rfl, rfl⟩ | ⟨rfl, -⟩ | ⟨rfl, rfl⟩ | ⟨rfl, rfl⟩ | ⟨rfl, rfl⟩
  · exact ⟨m, rfl⟩
  · have hexec := discardByte_cons (s := s.setMask m) hq
    rcases hdrop with rfl | rfl | rfl | rfl <;> exact ⟨m, hexec⟩
  · have hexec := openFrame_cons (s := s.setMask m) c hq
    rcases hsof with rfl | rfl | rfl <;> exact ⟨m, hexec⟩
  · exact ⟨m, rfl⟩
  · exact consumePayload_setMask m h
  · exact ⟨m, rfl⟩
  · exact absurd rfl hi
  all_goals exact ⟨m, rfl⟩

/-- No event of the environment but a reset writes `mask`. -/
theorem applyEvent_mask_of_ne_rst (s : State) {e : EnvEvent} (he : e ≠ .rst) :
    (applyEvent s e).mask = s.mask := by
  cases e with
  | rx b => rfl
  | idleLines b => rfl
  | rst => exact absurd rfl he

/-- Settles O33: PLD is the only operation that writes `mask`, and does so at `pcnt` 1; ASSIGN is the
only one whose meaning reads it. -/
theorem maskWrittenOnlyByCommit : Obligations.MaskWrittenOnlyByCommit := by
  have pcnt_one (s : State) : s.pcnt.toNat = 1 ↔ s.pcnt = 1 := BitVec.toNat_inj (y := 1)
  simp only [Obligations.MaskWrittenOnlyByCommit, pcnt_one]
  exact ⟨fun _ _ _ => exec_pld_mask_of_pcnt_one, fun _ _ _ => exec_mask_of_not_commit,
    fun _ _ _ m => exec_setMask m, fun s _ => applyEvent_mask_of_ne_rst s⟩

end Sys2Proof.Machine
end

section
/-! PROOF. The class of markers among the 256 bytes (spec/30_encoding.md R82). -/

namespace Sys2Proof.Machine

/-- The two unsigned comparisons of R82, as numbers: both ways, where `isMarker_toNat` is one. -/
theorem isMarker_iff_toNat (b : Byte) : isMarker b = true ↔ 0x30 ≤ b.toNat ∧ b.toNat ≤ 0x6F := by
  simp [isMarker, BitVec.le_def]

/-- The 64 markers among the byte values. -/
theorem length_filter_isMarker :
    ((List.range 256).filter fun n => isMarker (BitVec.ofNat 8 n)).length = 64 := by
  decide

/-- The bytes that are not markers are the others of the 256. -/
theorem length_filter_not_isMarker :
    ((List.range 256).filter fun n => !isMarker (BitVec.ofNat 8 n)).length = 192 := by
  have hsum := List.length_eq_length_filter_add (l := List.range 256)
    fun n => isMarker (BitVec.ofNat 8 n)
  rw [List.length_range, length_filter_isMarker] at hsum
  omega

/-- Bit 7 puts a byte at 0x80 or above, out of the range of the markers. -/
theorem isMarker_eq_false_of_bit_seven {b : Byte} (h : b.getLsbD 7 = true) : isMarker b = false := by
  have hlo : 2 ^ 7 ≤ b.toNat := Nat.ge_two_pow_of_testBit h
  rw [Bool.eq_false_iff, ne_eq, isMarker_iff_toNat]
  omega

/-- Below 0x80 the two readings of a byte agree; from 0x80 on the signed one is negative and the unsigned
one above 0x6F, so neither reading makes the byte a marker. -/
theorem isMarker_iff_toInt (b : Byte) : isMarker b = true ↔ 0x30 ≤ b.toInt ∧ b.toInt ≤ 0x6F := by
  rw [isMarker_iff_toNat]
  have hlt : b.toNat < 2 ^ 8 := b.isLt
  rcases Nat.lt_or_ge (2 * b.toNat) (2 ^ 8) with hlow | hhigh
  · rw [BitVec.toInt_eq_toNat_of_lt hlow]
    omega
  · rw [BitVec.toInt_eq_toNat_cond, if_neg (Nat.not_lt.mpr hhigh)]
    omega

/-- Settles O5: each clause follows from the unsigned range, the count of 64 by evaluation. -/
theorem markerRange : Obligations.MarkerRange :=
  ⟨isMarker_iff_toNat, length_filter_isMarker, length_filter_not_isMarker,
    fun _ => isMarker_eq_false_of_bit_seven, isMarker_iff_toInt⟩

end Sys2Proof.Machine
end

section
/-! PROOF. The gamma table: what every legal table has (spec/40_gamma_table.md R111), and the contents of
the reference table (R112, R113). -/

namespace Sys2Proof

/-! ## Every legal table (R111) -/

theorem Config.getElem?_gamma (cfg : Config) (v : Channel) :
    cfg.gamma[v.toNat]? = some (cfg.gammaAt v) :=
  List.getElem?_eq_getElem _

/-- The lookup in the spelling of `ConfigLegal`. -/
theorem Config.gammaAt_eq_getD (cfg : Config) (v : Channel) :
    cfg.gammaAt v = cfg.gamma.getD v.toNat 0 := by
  simp [cfg.getElem?_gamma v]

/-- The neighbour-by-neighbour bound of a legal table, carried over any distance within it. -/
theorem Config.monotoneOn_gamma (cfg : Config) :
    MonotoneOn (fun n => (cfg.gamma.getD n 0).toNat) (Set.Iic 255) := by
  obtain ⟨-, -, -, -, -, hstep, -⟩ := cfg.legal
  exact monotoneOn_of_le_add_one Set.ordConnected_Iic fun n _ _ hn => hstep n hn

theorem Config.gammaAt_mono (cfg : Config) {v w : Channel} (h : v.toNat ≤ w.toNat) :
    (cfg.gammaAt v).toNat ≤ (cfg.gammaAt w).toNat := by
  rw [cfg.gammaAt_eq_getD v, cfg.gammaAt_eq_getD w]
  exact cfg.monotoneOn_gamma (Nat.le_of_lt_succ v.isLt) (Nat.le_of_lt_succ w.isLt) h

/-- The same order, read off the list. -/
theorem Config.gamma_pairwise_le (cfg : Config) : cfg.gamma.Pairwise (· ≤ ·) := by
  obtain ⟨-, -, -, -, hlength, -⟩ := cfg.legal
  rw [List.pairwise_iff_getElem]
  intro m n hm hn hmn
  have hle := cfg.monotoneOn_gamma (a := m) (b := n) (Set.mem_Iic.mpr (by omega))
    (Set.mem_Iic.mpr (by omega)) hmn.le
  simpa only [List.getD_eq_getElem, hm, hn, ← BitVec.le_def] using hle

theorem Config.gammaAt_ends (cfg : Config) : cfg.gammaAt 0 = 0 ∧ cfg.gammaAt 255 = 255 := by
  obtain ⟨-, -, -, -, -, -, hzero, hlast, -⟩ := cfg.legal
  exact ⟨(cfg.gammaAt_eq_getD 0).trans hzero, (cfg.gammaAt_eq_getD 255).trans hlast⟩

/-- Settles O28: each clause is one part of the legality that the record carries; the order of any two
entries follows from that of neighbours. -/
theorem gammaOfEveryLegalTable : Obligations.GammaOfEveryLegalTable := by
  intro cfg
  obtain ⟨-, -, -, -, hlength, -⟩ := cfg.legal
  exact ⟨hlength, cfg.getElem?_gamma, fun v => Nat.le_of_lt_succ (cfg.gammaAt v).isLt,
    fun _ _ => cfg.gammaAt_mono, cfg.gammaAt_ends⟩

/-! ## The reference table (R112, R113) -/

/-- A lookup is one row of the printed table, the entry beside its index: what a scan of the rows
establishes holds of every lookup. -/
theorem Config.gammaAt_mem_zipIdx (cfg : Config) (v : Channel) :
    (cfg.gammaAt v, v.toNat) ∈ cfg.gamma.zipIdx :=
  List.mk_mem_zipIdx_iff_getElem?.mpr (cfg.getElem?_gamma v)

/-- The 256 entries against the power law of R112. -/
theorem referenceGamma_rounds_power :
    ∀ row ∈ Config.referenceGamma.zipIdx,
      (2 * row.1.toNat - 1) ^ 5 * 255 ^ 9 ≤ 32 * row.2 ^ 14 ∧
      32 * row.2 ^ 14 < (2 * row.1.toNat + 1) ^ 5 * 255 ^ 9 := by
  decide +kernel

/-- The 256 entries against their indices, R113(c). -/
theorem referenceGamma_le_index :
    ∀ row ∈ Config.referenceGamma.zipIdx,
      row.1.toNat ≤ row.2 ∧ (row.1.toNat = row.2 → row.2 = 0 ∨ row.2 = 255) := by
  decide +kernel

/-- R113(a): entry 27 is 0, and no entry before it is larger. -/
theorem reference_gammaAt_dark {v : Channel} (h : v.toNat ≤ 27) : Config.reference.gammaAt v = 0 := by
  have hle : (Config.reference.gammaAt v).toNat ≤ (Config.reference.gammaAt 27).toNat :=
    Config.reference.gammaAt_mono h
  have hlast : Config.reference.gammaAt 27 = 0 := by decide +kernel
  rw [hlast] at hle
  exact BitVec.eq_of_toNat_eq (Nat.le_zero.mp hle)

/-- R113(c): the two ends are fixed in every legal table, and in this one nothing between them. -/
theorem reference_gammaAt_eq_self_iff (v : Channel) :
    Config.reference.gammaAt v = v ↔ v = 0 ∨ v = 255 := by
  constructor
  · intro h
    obtain ⟨-, hends⟩ := referenceGamma_le_index _ (Config.reference.gammaAt_mem_zipIdx v)
    exact (hends (congrArg BitVec.toNat h)).imp BitVec.eq_of_toNat_eq BitVec.eq_of_toNat_eq
  · obtain ⟨hzero, hlast⟩ := Config.reference.gammaAt_ends
    rintro (rfl | rfl)
    · exact hzero
    · exact hlast

/-- R113(b): in a table that never decreases equal entries stand together, so the distinct values are
what is left when each entry equal to the one before it is dropped. -/
theorem referenceGamma_distinct_values : Config.referenceGamma.dedup.length = 163 := by
  have hsorted : Config.referenceGamma.Pairwise (· ≤ ·) := Config.reference.gamma_pairwise_le
  rw [← hsorted.destutter_eq_dedup]
  decide +kernel

/-- Settles O29: every lookup is a row of the table, and the rows meet the power law. -/
theorem referenceGammaIsPowerLaw : Obligations.ReferenceGammaIsPowerLaw := by
  intro v
  exact referenceGamma_rounds_power (Config.reference.gammaAt v, v.toNat)
    (Config.reference.gammaAt_mem_zipIdx v)

/-- Settles O30: the dark end follows from entry 27 and the table's order, the bound by the input from a
scan of the rows, the rest by evaluation; inputs 0 and 1 share an entry. -/
theorem referenceGammaFacts : Obligations.ReferenceGammaFacts := by
  refine ⟨fun _ => reference_gammaAt_dark, by decide +kernel, referenceGamma_distinct_values,
    fun v => ⟨?_, reference_gammaAt_eq_self_iff v⟩, ⟨0, 1, by decide, ?_⟩, by decide +kernel⟩
  · exact (referenceGamma_le_index _ (Config.reference.gammaAt_mem_zipIdx v)).1
  · exact (reference_gammaAt_dark (v := 0) (by decide)).trans
      (reference_gammaAt_dark (v := 1) (by decide)).symm

end Sys2Proof
end

section
/-! PROOF. The frame decoder's DROP and PLD: when they are selected and what they do
(spec/41_frame_decoder.md R122, R125). -/

namespace Sys2Proof.Machine

/-- While a byte is offered, the dispatch word carries it (R88). -/
theorem selected_of_rxq_cons {s : State} {b : Byte} {q : List Byte} (hq : s.rxq = b :: q) :
    selected s = decode (DispatchWord.pack s.phase.code true b) := by
  simp [selected, dispatchWord, rxAvail, rxData, hq]

/-! ## DROP (R122) -/

/-- The bytes that are not markers are those of the two rejected ranges, 0x00 to 0x2F and 0x70 to 0xFF. -/
theorem rejected_of_isMarker_eq_false {b : Byte} (hb : isMarker b = false) :
    b ≤ 0x2F ∨ ¬ b ≤ 0x6F := by
  rw [Bool.eq_false_iff, ne_eq, isMarker_iff_toNat] at hb
  bv_omega

/-- In POLL each rejected range has two rows, both DROP: above 0x6F the five rows below are passed over. -/
theorem decode_poll_of_not_isMarker {b : Byte} (hb : isMarker b = false) :
    decode (DispatchWord.pack (Phase.code .poll) true b) = some (.drop00 b) ∨
    decode (DispatchWord.pack (Phase.code .poll) true b) = some (.drop20 b) ∨
    decode (DispatchWord.pack (Phase.code .poll) true b) = some (.drop70 b) ∨
    decode (DispatchWord.pack (Phase.code .poll) true b) = some (.drop80 b) := by
  rw [decode_poll_some]
  rcases rejected_of_isMarker_eq_false hb with hlow | hhigh
  · by_cases h1F : b ≤ 0x1F
    · exact .inl (if_pos h1F)
    · exact .inr (.inl ((if_neg h1F).trans (if_pos hlow)))
  · have above {c : Byte} (hc : c ≤ 0x6F) : ¬ b ≤ c := fun hbc => hhigh (BitVec.le_trans hbc hc)
    rw [if_neg (above (by decide)), if_neg (above (by decide)), if_neg (above (by decide)),
      if_neg (above (by decide)), if_neg hhigh]
    by_cases h7F : b ≤ 0x7F
    · exact .inr (.inr (.inl (if_pos h7F)))
    · exact .inr (.inr (.inr (if_neg h7F)))

/-- Settles O13: the head byte lies in one of the two rejected ranges, whose rows are DROP's, and the four
rows run one operation, which does not look at the byte it removes. -/
theorem dropDiscardsOneByte : Obligations.DropDiscardsOneByte := by
  constructor
  · intro s b q hphase hq hb
    rw [selected_of_rxq_cons hq, hphase]
    exact decode_poll_of_not_isMarker hb
  · intro s c b q hq
    have hdrop := discardByte_cons hq
    exact ⟨hdrop, hdrop, hdrop, hdrop⟩

/-! ## PLD (R125) -/

/-- A marker is at least 0x30, so the subtraction of R83 does not wrap. -/
theorem toNat_extract_of_isMarker {b : Byte} (hb : isMarker b = true) :
    (extract b).toNat = b.toNat - 0x30 := by
  obtain ⟨hlo, -⟩ := isMarker_toNat hb
  rw [extract_marker hb, BitVec.toNat_sub_of_le hlo]
  rfl

/-- Above 1, counting down does not wrap either. -/
theorem exec_pld_of_two_le_pcnt {s : State} {b : Byte} {q : List Byte} (p : Byte) (hq : s.rxq = b :: q)
    (htwo : 2 ≤ s.pcnt.toNat) (hmax : s.pcnt.toNat ≤ 13) :
    exec (.pld p) s =
      .next { s with rxq := q, pcnt := BitVec.ofNat 4 (s.pcnt.toNat - 1) } := by
  have hframe : pcntInFrame s.pcnt = true := (pcntInFrame_iff _).mpr ⟨by omega, hmax⟩
  have hone : s.pcnt ≠ 1 := by bv_omega
  have hsub : s.pcnt - 1 = BitVec.ofNat 4 (s.pcnt.toNat - 1) := by bv_omega
  rw [← hsub]
  exact consumePayload_more hq hframe hone

/-- Settles O16: the PAYLOAD row of an offered byte is PLD; at `pcnt` 1 its operation commits the frame, at
2 to 13 it counts down. -/
theorem pldConsumesOnePayloadByte : Obligations.PldConsumesOnePayloadByte := by
  refine ⟨fun s p q hphase hq => ?_, fun s p b q hq hone => ?_, fun b => toNat_extract_of_isMarker,
    fun s p b q => exec_pld_of_two_le_pcnt p⟩
  · rw [selected_of_rxq_cons hq, hphase]
    exact decode_payload_some p
  · exact consumePayload_last hq (BitVec.eq_of_toNat_eq hone)

end Sys2Proof.Machine
end

section
/-! PROOF. The light-state mapper: the zones of a legal table partition the strip, so ASSIGN acts on each
pixel through that pixel's one zone (spec/42_light_state_mapper.md R142 to R146). -/

namespace Sys2Proof

/-! ## The partition of the strip (R142) -/

theorem Config.length_zones (cfg : Config) : cfg.zones.length = 6 := by
  obtain ⟨hlength, -⟩ := cfg.legal
  exact hlength

/-- The one zone that a legal table has for a pixel is the zone that `zone_of` finds. -/
theorem Config.filter_covers (cfg : Config) (i : PixelIndex) :
    cfg.zones.filter (·.covers i.val) = [cfg.zoneOf i] := by
  obtain ⟨-, -, -, hone, -⟩ := cfg.legal
  obtain ⟨z, hz⟩ := List.length_eq_one_iff.mp (hone i.val i.isLt)
  have hmem : cfg.zoneOf i ∈ cfg.zones.filter (·.covers i.val) :=
    List.mem_filter.mpr ⟨cfg.zoneOf_mem i, cfg.zoneOf_covers i⟩
  rw [hz] at hmem ⊢
  rw [List.mem_singleton.mp hmem]

theorem Config.eq_zoneOf_of_covers (cfg : Config) {z : Zone} {i : PixelIndex} (hz : z ∈ cfg.zones)
    (hi : z.covers i.val = true) : z = cfg.zoneOf i := by
  have hmem : z ∈ cfg.zones.filter (·.covers i.val) := List.mem_filter.mpr ⟨hz, hi⟩
  rw [cfg.filter_covers i] at hmem
  exact List.mem_singleton.mp hmem

/-- A zone's range is not empty and lies within the strip, so its first pixel has it as `zone_of`. -/
theorem Config.exists_zoneOf_eq (cfg : Config) {z : Zone} (hz : z ∈ cfg.zones) :
    ∃ i, cfg.zoneOf i = z := by
  obtain ⟨-, -, hrange, -⟩ := cfg.legal
  obtain ⟨hproper, hend⟩ := hrange z hz
  have hcovers : z.covers z.lo = true := (z.covers_iff z.lo).mpr ⟨le_rfl, hproper⟩
  exact ⟨⟨z.lo, hproper.trans_le hend⟩, (cfg.eq_zoneOf_of_covers hz hcovers).symm⟩

/-- Six distinct bit numbers out of six are all of them. -/
theorem Config.exists_zone_of_bit (cfg : Config) (k : Fin nZones) : ∃ z ∈ cfg.zones, z.bit = k := by
  obtain ⟨-, hnodup, -⟩ := cfg.legal
  have hcard : (cfg.zones.map Zone.bit).toFinset.card = Fintype.card (Fin nZones) := by
    rw [List.toFinset_card_of_nodup hnodup, List.length_map, cfg.length_zones, Fintype.card_fin]
  have hk : k ∈ (cfg.zones.map Zone.bit).toFinset := by
    rw [Finset.eq_univ_of_card _ hcard]
    exact Finset.mem_univ k
  exact List.mem_map.mp (List.mem_toFinset.mp hk)

theorem Config.zone_eq_of_bit_eq (cfg : Config) {z z' : Zone} (hz : z ∈ cfg.zones)
    (hz' : z' ∈ cfg.zones) (hbit : z.bit = z'.bit) : z = z' := by
  obtain ⟨-, hnodup, -⟩ := cfg.legal
  exact List.inj_on_of_nodup_map hnodup hz hz' hbit

/-- Row `k` of the reference table is the ten pixels from `10 k` on (R141). -/
theorem referenceZones_range (k : Fin 6) :
    Config.referenceZones[k].lo = 10 * k.val ∧ Config.referenceZones[k].hi = 10 * k.val + 10 := by
  revert k
  decide

theorem reference_zoneOf (i : PixelIndex) :
    Config.reference.zones[i.val / 10]? = some (Config.reference.zoneOf i) := by
  have hk : i.val / 10 < 6 := Nat.div_lt_of_lt_mul i.isLt
  have hrow : Config.reference.zones[i.val / 10]? = some Config.referenceZones[i.val / 10] :=
    List.getElem?_eq_getElem hk
  have hcovers : Config.referenceZones[i.val / 10].covers i.val = true := by
    obtain ⟨hlo, hhi⟩ := referenceZones_range ⟨i.val / 10, hk⟩
    simp only [Fin.getElem_fin] at hlo hhi
    rw [Zone.covers_iff]
    omega
  rw [hrow, Config.reference.eq_zoneOf_of_covers (List.mem_of_getElem? hrow) hcovers]

/-- Settles O26: legality gives each pixel one zone and each bit number one row; the first pixel of a row
shows that `zone_of` is onto. -/
theorem zonesPartitionStrip : Obligations.ZonesPartitionStrip := by
  refine ⟨fun cfg => ⟨cfg.length_zones, fun z => cfg.exists_zoneOf_eq⟩, fun cfg i => ?_, fun cfg k => ?_,
    reference_zoneOf⟩
  · obtain ⟨hlo, hhi⟩ := (Zone.covers_iff _ _).mp (cfg.zoneOf_covers i)
    exact ⟨cfg.zoneOf_mem i, hlo, hhi, fun z hz hzlo hzhi =>
      cfg.eq_zoneOf_of_covers hz ((z.covers_iff i.val).mpr ⟨hzlo, hzhi⟩)⟩
  · obtain ⟨z, hz, hbit⟩ := cfg.exists_zone_of_bit k
    exact ⟨z, hz, hbit, fun z' hz' hbit' => cfg.zone_eq_of_bit_eq hz' hz (hbit'.trans hbit.symm)⟩

namespace Machine

/-! ## ASSIGN, seen from one pixel (R143, R144, R146) -/

theorem exec_assign (s : State) :
    exec .assign s = .next ((s.setRaw (assignZones s.cfg.zones s.mask s.raw)).setPhase .correct) := rfl

/-- Where one zone of the list covers the pixel, the other zones' writes pass the pixel by. -/
theorem get_assignZones_of_filter {zones : List Zone} {z : Zone} {i : PixelIndex}
    (h : zones.filter (·.covers i.val) = [z]) (mask : BitVec 8) (b : PixelBuffer) :
    (assignZones zones mask b).get i = if isLit mask z = true then z.color else b.get i := by
  rw [get_assignZones]
  calc zones.foldl (fun p z => if isLit mask z = true ∧ z.covers i.val = true then z.color else p)
        (b.get i)
      = (zones.filter (·.covers i.val)).foldl (fun p z => if isLit mask z = true then z.color else p)
        (b.get i) := by simp only [List.foldl_filter, ← ite_and, and_comm]
    _ = if isLit mask z = true then z.color else b.get i := by rw [h]; rfl

/-- The per-pixel form of ASSIGN, for the rows of a legal table in any order (R144, R146). -/
theorem get_assignZones_of_perm {cfg : Config} {zones : List Zone} (h : zones.Perm cfg.zones)
    (mask : BitVec 8) (b : PixelBuffer) (i : PixelIndex) :
    (assignZones zones mask b).get i =
      if isLit mask (cfg.zoneOf i) = true then (cfg.zoneOf i).color else b.get i := by
  have hfilter := h.filter (·.covers i.val)
  rw [cfg.filter_covers i] at hfilter
  exact get_assignZones_of_filter (List.perm_singleton.mp hfilter) mask b

/-- Settles O25: a pixel has one zone whatever the order of the rows, and that zone decides. -/
theorem zoneOrderImmaterial : Obligations.ZoneOrderImmaterial := by
  intro cfg zones hperm mask b
  apply PixelBuffer.ext_get
  intro i
  rw [get_assignZones_of_perm hperm, get_assignZones_of_perm (.refl cfg.zones)]

/-- Settles O23: the buffer that ASSIGN writes is read pixel by pixel, and the pixel's zone is the one
given. -/
theorem assignPaintsLitZones : Obligations.AssignPaintsLitZones := by
  refine fun s => ⟨fun hphase => ?_, assignZones s.cfg.zones s.mask s.raw, exec_assign s, ?_⟩
  · rw [selected, dispatchWord, hphase]
    exact decode_assign _ _
  · intro z hz i hlo hhi
    have hzone := s.cfg.eq_zoneOf_of_covers hz ((z.covers_iff i.val).mpr ⟨hlo, hhi⟩)
    rw [get_assignZones_of_perm (.refl s.cfg.zones), ← hzone, isLit]

/-! ## The bits of the mask that ASSIGN reads (R145) -/

/-- A zone's bit number is below 6. -/
theorem isLit_congr {m m' : BitVec 8} (h : ∀ k < 6, m.getLsbD k = m'.getLsbD k) :
    isLit m = isLit m' :=
  funext fun z => h z.bit z.bit.isLt

theorem assignZones_congr {m m' : BitVec 8} (h : ∀ k < 6, m.getLsbD k = m'.getLsbD k)
    (zones : List Zone) (b : PixelBuffer) : assignZones zones m b = assignZones zones m' b := by
  apply PixelBuffer.ext_get
  intro i
  rw [get_assignZones, get_assignZones, isLit_congr h]

/-- Settles O24: ASSIGN reads the mask through the lit zones only. -/
theorem assignIgnoresReservedBits : Obligations.AssignIgnoresReservedBits := by
  intro s m hagree
  refine ⟨_, exec_assign s, ?_⟩
  rw [exec_assign, assignZones_congr hagree]
  rfl

end Machine

end Sys2Proof
end

section
/-! PROOF. The render pipeline's CORRECT and SUBMIT: when they are selected and what they do
(spec/43_render_pipeline.md R153, R154). -/

namespace Sys2Proof.Machine

/-- In a phase whose words all decode to one operation, that operation is selected whatever the stream
offers (R89). -/
theorem selected_of_phase {s : State} {p : Phase} {i : Instr}
    (hdecode : ∀ a d, decode (DispatchWord.pack p.code a d) = some i) (hphase : s.phase = p) :
    selected s = some i := by
  rw [selected, dispatchWord, hphase]
  exact hdecode _ _

/-! ## CORRECT (R153) -/

/-- The buffer that CORRECT writes is a function of the table and of `raw`, so no other `cor` changes it. -/
theorem exec_correct_setCor (s : State) (c : PixelBuffer) :
    exec .correct (s.setCor c) = .next ((s.setCor (correctBuffer s.cfg s.raw)).setPhase .submit) := rfl

/-- Settles O27: the corrected buffer is read pixel by pixel, and each channel of it is a lookup in the one
table. -/
theorem correctRecomputesBuffer : Obligations.CorrectRecomputesBuffer := by
  refine fun s => ⟨selected_of_phase decode_correct, correctBuffer s.cfg s.raw,
    exec_correct_setCor s s.cor, fun i => ?_, exec_correct_setCor s⟩
  rw [get_correctBuffer]
  exact ⟨s.cfg.getElem?_gamma _, s.cfg.getElem?_gamma _, s.cfg.getElem?_gamma _⟩

/-! ## SUBMIT (R154) -/

theorem exec_submit (s : State) :
    exec .submit s = .next ((s.setTxlog (s.txlog ++ [s.cor])).setPhase .delay) := rfl

/-- Settles O31: the frame that SUBMIT appends is the buffer `cor` itself, which carries its length. -/
theorem submitAppendsCorrected : Obligations.SubmitAppendsCorrected :=
  fun s => ⟨selected_of_phase decode_submit, exec_submit s, s.cor.size⟩

end Sys2Proof.Machine
end

section
/-! PROOF. What each operation writes and reads, and what it leaves unchanged (spec/10_state.md R21 to R31,
spec/20_memory.md sections 2 and 4). -/

namespace Sys2Proof.Machine

/-! ## The families of rows -/

theorem exec_drop {i : Instr} {s : State} {c b : Byte} {q : List Byte}
    (hi : i = .drop00 c ∨ i = .drop20 c ∨ i = .drop70 c ∨ i = .drop80 c) (hq : s.rxq = b :: q) :
    exec i s = .next ((s.setRxq q).setPhase .fade) := by
  rcases hi with rfl | rfl | rfl | rfl <;> exact discardByte_cons hq

theorem exec_sof {i : Instr} {s : State} {m b : Byte} {q : List Byte}
    (hi : i = .sof30 m ∨ i = .sof40 m ∨ i = .sof60 m) (hq : s.rxq = b :: q) :
    exec i s = .next ((((s.setRxq q).setSof m).setPcnt payloadLen).setPhase .payload) := by
  rcases hi with rfl | rfl | rfl <;> exact openFrame_cons m hq

/-! ## What is not written -/

/-- The writer of each element that one or two operations write, and the elements that none writes. -/
theorem exec_keeps {i : Instr} {s t : State} (h : exec i s = .next t) :
    t.cfg = s.cfg ∧ t.rxIdle = s.rxIdle ∧ t.inputs = s.inputs ∧
    (i ≠ .fade → i ≠ .assign → t.raw = s.raw) ∧ (i ≠ .correct → t.cor = s.cor) ∧
    (i ≠ .submit → t.txlog = s.txlog) := by
  rcases exec_next_cases h with ⟨-, rfl⟩ | ⟨-, b, q, -, rfl⟩ | ⟨m, -, b, q, -, rfl⟩ | ⟨-, rfl⟩ |
    ⟨-, b, q, -, -, ⟨-, rfl⟩ | ⟨-, rfl⟩⟩ | ⟨rfl, rfl⟩ | ⟨rfl, rfl⟩ | ⟨rfl, rfl⟩ | ⟨rfl, rfl⟩ | ⟨-, rfl⟩
  all_goals simp

/-- Settles O37: the rows that assert `rx_pop` are those whose operation begins with a pop. -/
theorem streamReadHeadFirst : Obligations.StreamReadHeadFirst := by
  intro i s t h
  rcases exec_next_cases h with ⟨rfl, rfl⟩ | ⟨⟨c, hi⟩, b, q, hq, rfl⟩ | ⟨m, hi, b, q, hq, rfl⟩ |
    ⟨rfl, rfl⟩ | ⟨⟨p, rfl⟩, b, q, hq, -, ⟨-, rfl⟩ | ⟨-, rfl⟩⟩ | ⟨rfl, rfl⟩ | ⟨rfl, rfl⟩ | ⟨rfl, rfl⟩ |
    ⟨rfl, rfl⟩ | ⟨rfl, rfl⟩
  · rfl
  · rcases hi with rfl | rfl | rfl | rfl <;> exact ⟨b, hq⟩
  · rcases hi with rfl | rfl | rfl <;> exact ⟨b, hq⟩
  · rfl
  · exact ⟨b, hq⟩
  · exact ⟨b, hq⟩
  all_goals rfl

/-! ## What is not read -/

/-- A change of the state that the decoder's operations pass on as it is: they neither read nor write
what it changes, and it leaves a byte on offer at the head of the stream. -/
structure PassesDecoder (f : State → State) : Prop where
  pop : ∀ s b q, s.rxq = b :: q → ∃ q', (f s).rxq = b :: q' ∧ (f s).setRxq q' = f (s.setRxq q)
  pcnt : ∀ s, (f s).pcnt = s.pcnt := by exact fun _ => rfl
  sof : ∀ s, (f s).sof = s.sof := by exact fun _ => rfl
  setMask : ∀ s v, (f s).setMask v = f (s.setMask v) := by exact fun _ _ => rfl
  setPhase : ∀ s v, (f s).setPhase v = f (s.setPhase v) := by exact fun _ _ => rfl
  setPcnt : ∀ s v, (f s).setPcnt v = f (s.setPcnt v) := by exact fun _ _ => rfl
  setSof : ∀ s v, (f s).setSof v = f (s.setSof v) := by exact fun _ _ => rfl

/-- Such a change may be made before an operation or after it, if that is so of the four operations on
buffers. -/
theorem PassesDecoder.exec {f : State → State} (hf : PassesDecoder f) {i : Instr} {s t : State}
    (h : exec i s = .next t)
    (hrender : i = .fade ∨ i = .assign ∨ i = .correct ∨ i = .submit → exec i (f s) = .next (f t)) :
    exec i (f s) = .next (f t) := by
  rcases exec_next_cases h with ⟨rfl, rfl⟩ | ⟨⟨c, hi⟩, b, q, hq, rfl⟩ | ⟨m, hi, b, q, hq, rfl⟩ |
    ⟨rfl, rfl⟩ | ⟨⟨p, rfl⟩, b, q, hq, hframe, ⟨hone, rfl⟩ | ⟨hone, rfl⟩⟩ | ⟨rfl, -⟩ | ⟨rfl, -⟩ | ⟨rfl, -⟩ |
    ⟨rfl, -⟩ | ⟨rfl, rfl⟩
  · exact congrArg Host.Outcome.next (hf.setPhase s _)
  · obtain ⟨q', hq', hpop⟩ := hf.pop s b q hq
    rw [exec_drop hi hq', hpop, hf.setPhase]
  · obtain ⟨q', hq', hpop⟩ := hf.pop s b q hq
    rw [exec_sof hi hq', hpop, hf.setSof, hf.setPcnt, hf.setPhase]
  · rfl
  · obtain ⟨q', hq', hpop⟩ := hf.pop s b q hq
    rw [← hf.pcnt s] at hone
    refine (consumePayload_last hq' hone).trans ?_
    rw [hpop, hf.sof, hf.setPcnt, hf.setMask, hf.setPhase]
  · obtain ⟨q', hq', hpop⟩ := hf.pop s b q hq
    rw [← hf.pcnt s] at hframe hone
    refine (consumePayload_more hq' hframe hone).trans ?_
    rw [hpop, hf.pcnt, hf.setPcnt]
  · exact hrender (.inl rfl)
  · exact hrender (.inr (.inl rfl))
  · exact hrender (.inr (.inr (.inl rfl)))
  · exact hrender (.inr (.inr (.inr rfl)))
  · exact congrArg Host.Outcome.next (hf.setPhase s _)

/-! A write to a field that the decoder's operations do not know passes through them. -/

theorem passesDecoder_setRaw (v : PixelBuffer) : PassesDecoder (·.setRaw v) where
  pop _ _ q hq := ⟨q, hq, rfl⟩

theorem passesDecoder_setCor (v : PixelBuffer) : PassesDecoder (·.setCor v) where
  pop _ _ q hq := ⟨q, hq, rfl⟩

theorem passesDecoder_setTxlog (v : List PixelBuffer) : PassesDecoder (·.setTxlog v) where
  pop _ _ q hq := ⟨q, hq, rfl⟩

theorem passesDecoder_setRxIdle (v : Byte) : PassesDecoder (·.setRxIdle v) where
  pop _ _ q hq := ⟨q, hq, rfl⟩

theorem passesDecoder_setInputs (v : List (List EnvEvent)) : PassesDecoder (·.setInputs v) where
  pop _ _ q hq := ⟨q, hq, rfl⟩

/-- Bytes that arrive behind the one an operation pops are still there after it. -/
theorem passesDecoder_append (bytes : List Byte) : PassesDecoder fun s => s.setRxq (s.rxq ++ bytes) where
  pop _ _ q hq := ⟨q ++ bytes, by simp [hq], rfl⟩

section

variable {i : Instr} {s t : State} (h : exec i s = .next t)

include h

theorem exec_setRaw (v : PixelBuffer) (hfade : i ≠ .fade) (hassign : i ≠ .assign)
    (hcorrect : i ≠ .correct) : exec i (s.setRaw v) = .next (t.setRaw v) := by
  refine (passesDecoder_setRaw v).exec h ?_
  rintro (rfl | rfl | rfl | rfl)
  · exact absurd rfl hfade
  · exact absurd rfl hassign
  · exact absurd rfl hcorrect
  · cases h
    rfl

theorem exec_setCor (v : PixelBuffer) (hsubmit : i ≠ .submit) (hcorrect : i ≠ .correct) :
    exec i (s.setCor v) = .next (t.setCor v) := by
  refine (passesDecoder_setCor v).exec h ?_
  rintro (rfl | rfl | rfl | rfl)
  · cases h
    rfl
  · cases h
    rfl
  · exact absurd rfl hcorrect
  · exact absurd rfl hsubmit

theorem exec_setTxlog (v : List PixelBuffer) (hsubmit : i ≠ .submit) :
    exec i (s.setTxlog v) = .next (t.setTxlog v) := by
  refine (passesDecoder_setTxlog v).exec h ?_
  rintro (rfl | rfl | rfl | rfl)
  · cases h
    rfl
  · cases h
    rfl
  · cases h
    rfl
  · exact absurd rfl hsubmit

theorem exec_setRxIdle (v : Byte) : exec i (s.setRxIdle v) = .next (t.setRxIdle v) := by
  refine (passesDecoder_setRxIdle v).exec h ?_
  rintro (rfl | rfl | rfl | rfl) <;> cases h <;> rfl

theorem exec_setInputs (v : List (List EnvEvent)) : exec i (s.setInputs v) = .next (t.setInputs v) := by
  refine (passesDecoder_setInputs v).exec h ?_
  rintro (rfl | rfl | rfl | rfl) <;> cases h <;> rfl

theorem exec_append (bytes : List Byte) :
    exec i (s.setRxq (s.rxq ++ bytes)) = .next (t.setRxq (t.rxq ++ bytes)) := by
  refine (passesDecoder_append bytes).exec h ?_
  rintro (rfl | rfl | rfl | rfl) <;> cases h <;> rfl

end

/-- Settles O34: the two writers and the three readers are left out, and the rest passes `raw` on. -/
theorem rawTouchedOnlyByRender : Obligations.RawTouchedOnlyByRender := by
  refine ⟨fun i s t h => ?_, fun i s t r h => exec_setRaw h r⟩
  obtain ⟨-, -, -, hraw, -⟩ := exec_keeps h
  exact hraw

/-- Settles O35: CORRECT overwrites `cor` by a function of `raw`, SUBMIT appends it, and the rest passes
it on. -/
theorem corFeedsOnlyTheSink : Obligations.CorFeedsOnlyTheSink := by
  refine ⟨fun i s t h => ?_, fun i s t c h => exec_setCor h c, fun s t c h => ?_, fun s t c h => ?_⟩
  · obtain ⟨-, -, -, -, hcor, -⟩ := exec_keeps h
    exact hcor
  · exact (exec_correct_setCor s c).trans h
  · cases h
    rfl

/-- Settles O36: only SUBMIT writes the list of frames, and does so at its end whatever it holds. -/
theorem outputOnlyBySubmit : Obligations.OutputOnlyBySubmit := by
  have hport (i : Instr) : txSubmitPort i = true ↔ i = .submit := by
    cases i <;> simp [txSubmitPort]
  refine ⟨hport, fun i s t h => ?_, fun i s t l h => ?_⟩
  · by_cases hi : i = .submit
    · subst hi
      cases h
      rfl
    · obtain ⟨-, -, -, -, -, htxlog⟩ := exec_keeps h
      rw [if_neg (mt (hport i).mp hi)]
      exact htxlog hi
  · by_cases hi : i = .submit
    · subst hi
      cases h
      exact ⟨l ++ [s.cor], rfl⟩
    · exact ⟨l, exec_setTxlog h l hi⟩

end Sys2Proof.Machine
end

section
/-! PROOF. The decoder against the operation map and the encoder (spec/30_encoding.md R85, R89). -/

namespace Sys2Proof

/-! ## Encoding and back -/

/-- A POLL row's operand is encoded as the word of POLL with that byte on offer, whose class decides. -/
theorem decode_offered (b : Byte) :
    decode (0b0001#4 ++ b) =
      if b ≤ 0x1F then some (.drop00 b)
      else if b ≤ 0x2F then some (.drop20 b)
      else if b ≤ 0x3F then some (.sof30 b)
      else if b ≤ 0x5F then some (.sof40 b)
      else if b ≤ 0x6F then some (.sof60 b)
      else if b ≤ 0x7F then some (.drop70 b)
      else some (.drop80 b) :=
  decode_poll_some b

/-- Settles O1: an operation is encoded as a word of its own phase; in POLL the row's lower bound passes
the rows before it over and its upper bound meets the row. -/
theorem decodeAfterEncode : Obligations.DecodeAfterEncode := by
  intro i hi
  cases i with
  | drop00 b =>
    have hhi : b ≤ 0x1F := of_decide_eq_true hi
    rw [encode, decode_offered, if_pos hhi]
  | drop20 b =>
    obtain ⟨hlo, hhi⟩ : 0x20 ≤ b ∧ b ≤ 0x2F := by simpa [Instr.wellFormed] using hi
    rw [encode, decode_offered, if_neg (by bv_omega), if_pos hhi]
  | sof30 b =>
    obtain ⟨hlo, hhi⟩ : 0x30 ≤ b ∧ b ≤ 0x3F := by simpa [Instr.wellFormed] using hi
    rw [encode, decode_offered, if_neg (by bv_omega), if_neg (by bv_omega), if_pos hhi]
  | sof40 b =>
    obtain ⟨hlo, hhi⟩ : 0x40 ≤ b ∧ b ≤ 0x5F := by simpa [Instr.wellFormed] using hi
    rw [encode, decode_offered, if_neg (by bv_omega), if_neg (by bv_omega), if_neg (by bv_omega),
      if_pos hhi]
  | sof60 b =>
    obtain ⟨hlo, hhi⟩ : 0x60 ≤ b ∧ b ≤ 0x6F := by simpa [Instr.wellFormed] using hi
    rw [encode, decode_offered, if_neg (by bv_omega), if_neg (by bv_omega), if_neg (by bv_omega),
      if_neg (by bv_omega), if_pos hhi]
  | drop70 b =>
    obtain ⟨hlo, hhi⟩ : 0x70 ≤ b ∧ b ≤ 0x7F := by simpa [Instr.wellFormed] using hi
    rw [encode, decode_offered, if_neg (by bv_omega), if_neg (by bv_omega), if_neg (by bv_omega),
      if_neg (by bv_omega), if_neg (by bv_omega), if_pos hhi]
  | drop80 b =>
    have hlo : 0x80 ≤ b := of_decide_eq_true hi
    rw [encode, decode_offered, if_neg (by bv_omega), if_neg (by bv_omega), if_neg (by bv_omega),
      if_neg (by bv_omega), if_neg (by bv_omega), if_neg (by bv_omega)]
  | idle => exact decode_poll_none 0
  | wait => exact decode_payload_none 0
  | pld p => exact decode_payload_some p
  | fade => exact decode_fade false 0
  | assign => exact decode_assign false 0
  | correct => exact decode_correct false 0
  | submit => exact decode_submit false 0
  | delay => exact decode_delay false 0
  | illegal => exact decode_unused false 0

/-! ## The rows (R89) -/

theorem operationMap_nodup : (operationMap.map Row.mnemonic).Nodup := by decide

theorem row_operation_mnemonic :
    ∀ row ∈ operationMap, ∀ w, (row.operation w).mnemonic = row.mnemonic := by
  simp [operationMap, Instr.mnemonic]

/-- The decoder answers from a row that selects the word and bears the operation's name. -/
theorem exists_row_of_decode {w : DispatchWord} {i : Instr} (h : decode w = some i) :
    ∃ row ∈ operationMap, row.mnemonic = i.mnemonic ∧ row.selects w = true := by
  obtain ⟨row, hrow, rfl⟩ := Option.map_eq_some_iff.mp h
  have hmem := List.mem_of_find?_eq_some hrow
  exact ⟨row, hmem, (row_operation_mnemonic row hmem w).symm,
    List.find?_some (p := fun r : Row => r.selects w) hrow⟩

/-- Settles O4: the word's row and the row that O1 finds for the encoding bear one name, and no two rows
do. -/
theorem everyWordDecodesInItsRow : Obligations.EveryWordDecodesInItsRow := by
  intro w
  obtain ⟨i, hi, hwf⟩ := decode_wellFormed_isSome w
  obtain ⟨row, hrow, hname, hselects⟩ := exists_row_of_decode hi
  obtain ⟨row', hrow', hname', hselects'⟩ := exists_row_of_decode (decodeAfterEncode i hwf)
  obtain rfl : row' = row :=
    List.inj_on_of_nodup_map operationMap_nodup hrow' hrow (hname'.trans hname.symm)
  exact ⟨i, hi, hwf, row', hrow', hname', hselects, hselects'⟩

/-- Two rows whose patterns differ in a bit that both masks keep select no word in common. -/
theorem Row.selects_disjoint {a b : Row} {w : DispatchWord}
    (h : a.pattern &&& (a.mask &&& b.mask) ≠ b.pattern &&& (a.mask &&& b.mask))
    (ha : a.selects w = true) : b.selects w = false := by
  rw [Bool.eq_false_iff]
  intro hb
  have hwa : w &&& a.mask = a.pattern := beq_iff_eq.mp ha
  have hwb : w &&& b.mask = b.pattern := beq_iff_eq.mp hb
  refine h ?_
  rw [← hwa, ← hwb]
  ext k hk
  simp only [BitVec.getElem_and]
  cases w[k] <;> cases a.mask[k] <;> cases b.mask[k] <;> rfl

theorem operationMap_pairwise_disjoint (w : DispatchWord) :
    operationMap.Pairwise fun a b => a.selects w = true → b.selects w = false := by
  have hpatterns : operationMap.Pairwise fun a b =>
      a.pattern &&& (a.mask &&& b.mask) ≠ b.pattern &&& (a.mask &&& b.mask) := by decide
  exact hpatterns.imp Row.selects_disjoint

/-- Settles O2: the decoder finds a row for every word, and any two rows are disjoint. -/
theorem oneRowPerDispatchWord : Obligations.OneRowPerDispatchWord := by
  refine ⟨rfl, fun w => ?_⟩
  obtain ⟨i, hi⟩ := Option.isSome_iff_exists.mp (decode_isSome w)
  obtain ⟨row, hrow, -, hselects⟩ := exists_row_of_decode hi
  have hmem : row ∈ operationMap.filter (·.selects w) := List.mem_filter.mpr ⟨hrow, hselects⟩
  have hone := (operationMap_pairwise_disjoint w).filter (·.selects w)
  have hall : ∀ r ∈ operationMap.filter (·.selects w), r.selects w = true :=
    fun _ hr => List.of_mem_filter (p := fun r : Row => r.selects w) hr
  generalize operationMap.filter (·.selects w) = rows at hmem hone hall ⊢
  match rows with
  | [] => cases hmem
  | [_] => rfl
  | a :: b :: _ =>
    have hb : b.selects w = false := List.rel_of_pairwise_cons hone (by simp) (hall a (by simp))
    simp [hall b (by simp)] at hb

/-- Settles O3: sixteen words, evaluated. -/
theorem specWordsDecode : Obligations.SpecWordsDecode := by
  unfold Obligations.SpecWordsDecode
  decide

end Sys2Proof
end

section
/-! PROOF. The bitmask that a marker carries (spec/30_encoding.md R81, R83, R84). -/

namespace Sys2Proof.Machine

/-- R84 against R83, on each of the 64 markers. -/
theorem extract_eq_extractGates {b : Byte} (hb : isMarker b = true) : extract b = extractGates b := by
  rw [extract_marker hb]
  revert b
  decide +kernel

/-- The wires of R84, bit by bit. -/
theorem getLsbD_extractGates (b : Byte) :
    (∀ k < 4, (extractGates b).getLsbD k = b.getLsbD k) ∧
    (extractGates b).getLsbD 4 = !b.getLsbD 4 ∧
    (extractGates b).getLsbD 5 = (b.getLsbD 6 && (b.getLsbD 5 || b.getLsbD 4)) ∧
    (extractGates b).getLsbD 6 = false ∧ (extractGates b).getLsbD 7 = false := by
  revert b
  decide +kernel

/-- A marker is at most 0x6F, so no reserved bit is set. -/
theorem toNat_extract_le {b : Byte} (hb : isMarker b = true) : (extract b).toNat ≤ 0x3F := by
  have hhi : b.toNat ≤ 0x6F := (isMarker_toNat hb).2
  rw [toNat_extract_of_isMarker hb]
  omega

/-- Settles O6: the subtraction is bounded by the markers' range; the bits are those of the gates. -/
theorem extractionGateForm : Obligations.ExtractionGateForm := by
  intro b hb
  have hgates := extract_eq_extractGates hb
  refine ⟨toNat_extract_of_isMarker hb, toNat_extract_le hb, hgates, ?_⟩
  rw [hgates]
  exact getLsbD_extractGates b

/-- Settles O7: nine markers, evaluated. -/
theorem markersOfSingleZones : Obligations.MarkersOfSingleZones :=
  ⟨rfl, rfl, rfl, rfl, rfl, rfl, rfl, rfl, rfl⟩

end Sys2Proof.Machine
end

section
/-! PROOF. Which operation a state selects, and what one step then does (spec/30_encoding.md R88 to R90,
spec/41_frame_decoder.md R121 to R125, spec/44_main_loop.md R171 to R178). -/

namespace Sys2Proof.Machine

/-! ## The dispatch word (R88) -/

/-- With nothing to read, the data bits carry the idle lines. -/
theorem selected_of_rxq_nil {s : State} (hq : s.rxq = []) :
    selected s = decode (DispatchWord.pack s.phase.code false s.rxIdle) := by
  simp [selected, dispatchWord, rxAvail, rxData, hq]

/-- With nothing to read, a word's phase alone decides: POLL and PAYLOAD have one row for it, the other
phases have one row at all. -/
theorem decode_pack_false_congr (p : BitVec 3) (d d' : Byte) :
    decode (DispatchWord.pack p false d) = decode (DispatchWord.pack p false d') := by
  rw [← Phase.code_ofCode p]
  cases Phase.ofCode p with
  | poll => rw [decode_poll_none, decode_poll_none]
  | payload => rw [decode_payload_none, decode_payload_none]
  | fade => rw [decode_fade, decode_fade]
  | assign => rw [decode_assign, decode_assign]
  | correct => rw [decode_correct, decode_correct]
  | submit => rw [decode_submit, decode_submit]
  | delay => rw [decode_delay, decode_delay]
  | unused => rw [decode_unused, decode_unused]

/-- An event leaves the offered byte where it is: bytes arrive behind it, and a reset does not touch the
source (R63, R222). -/
theorem applyEvent_rxq_cons (s : State) (e : EnvEvent) {b : Byte} {q : List Byte} (hq : s.rxq = b :: q) :
    ∃ q', (applyEvent s e).rxq = b :: q' := by
  cases e with
  | rx c => exact ⟨q ++ [c], by simp [hq]⟩
  | idleLines c => exact ⟨q, hq⟩
  | rst => exact ⟨q, hq⟩

/-- Settles O9: the fields are read back from the packed word. -/
theorem dispatchWordSamplesPorts : Obligations.DispatchWordSamplesPorts := by
  refine ⟨fun s => ⟨DispatchWord.pack_phaseBits _ _ _, ?_, fun b q hq => ?_⟩, decode_pack_false_congr,
    fun s e b q => applyEvent_rxq_cons s e⟩
  · rw [dispatchWord, DispatchWord.pack_rxAvail, rxAvail_iff]
  · rw [dispatchWord, DispatchWord.pack_rxData, rxData, hq, List.headD_cons]

/-! ## Selection, phase by phase (R89) -/

theorem selected_idle {s : State} (hphase : s.phase = .poll) (hq : s.rxq = []) :
    selected s = some .idle := by
  rw [selected_of_rxq_nil hq, hphase]
  exact decode_poll_none _

theorem selected_drop {s : State} {b : Byte} {q : List Byte} (hphase : s.phase = .poll)
    (hq : s.rxq = b :: q) (hb : isMarker b = false) :
    ∃ i, (i = .drop00 b ∨ i = .drop20 b ∨ i = .drop70 b ∨ i = .drop80 b) ∧ selected s = some i := by
  rw [selected_of_rxq_cons hq, hphase]
  rcases decode_poll_of_not_isMarker hb with h | h | h | h <;> exact ⟨_, by simp, h⟩

/-- In POLL the markers have three rows, all SOF: from 0x30 on the two rows before are passed over. -/
theorem selected_sof {s : State} {b : Byte} {q : List Byte} (hphase : s.phase = .poll)
    (hq : s.rxq = b :: q) (hb : isMarker b = true) :
    ∃ i, (i = .sof30 b ∨ i = .sof40 b ∨ i = .sof60 b) ∧ selected s = some i := by
  obtain ⟨hlo, hhi⟩ := isMarker_toNat hb
  rw [selected_of_rxq_cons hq, hphase, decode_poll_some, if_neg (by bv_omega), if_neg (by bv_omega)]
  by_cases h3F : b ≤ 0x3F
  · exact ⟨.sof30 b, by simp, if_pos h3F⟩
  · rw [if_neg h3F]
    by_cases h5F : b ≤ 0x5F
    · exact ⟨.sof40 b, by simp, if_pos h5F⟩
    · exact ⟨.sof60 b, by simp, by rw [if_neg h5F, if_pos (by bv_omega)]⟩

theorem selected_wait {s : State} (h : s.Stalled) : selected s = some .wait := by
  obtain ⟨hphase, hq⟩ := h
  rw [selected_of_rxq_nil hq, hphase]
  exact decode_payload_none _

theorem selected_pld {s : State} {p : Byte} {q : List Byte} (hphase : s.phase = .payload)
    (hq : s.rxq = p :: q) : selected s = some (.pld p) := by
  rw [selected_of_rxq_cons hq, hphase]
  exact decode_payload_some p

/-- When an operation is selected, and with which operand (R85, R89): the lemmas above, read
backwards. -/
theorem selected_cases {s : State} {i : Instr} (h : selected s = some i) :
    (i = .idle ∧ s.phase = .poll ∧ s.rxq = []) ∨
    (∃ b q, (i = .drop00 b ∨ i = .drop20 b ∨ i = .drop70 b ∨ i = .drop80 b) ∧
      s.phase = .poll ∧ s.rxq = b :: q) ∨
    (∃ b q, (i = .sof30 b ∨ i = .sof40 b ∨ i = .sof60 b) ∧
      s.phase = .poll ∧ s.rxq = b :: q ∧ isMarker b = true) ∨
    (i = .wait ∧ s.Stalled) ∨
    (∃ p q, i = .pld p ∧ s.phase = .payload ∧ s.rxq = p :: q) ∨
    (i = .fade ∧ s.phase = .fade) ∨
    (i = .assign ∧ s.phase = .assign) ∨
    (i = .correct ∧ s.phase = .correct) ∨
    (i = .submit ∧ s.phase = .submit) ∨
    (i = .delay ∧ s.phase = .delay) ∨
    (i = .illegal ∧ s.phase = .unused) := by
  have only {j : Instr} (hj : selected s = some j) : i = j := Option.some.inj (h.symm.trans hj)
  cases hphase : s.phase with
  | poll =>
    cases hq : s.rxq with
    | nil => simp [only (selected_idle hphase hq)]
    | cons b q =>
      cases hb : isMarker b with
      | false =>
        obtain ⟨j, hj, hsel⟩ := selected_drop hphase hq hb
        exact .inr (.inl ⟨b, q, only hsel ▸ hj, rfl, rfl⟩)
      | true =>
        obtain ⟨j, hj, hsel⟩ := selected_sof hphase hq hb
        exact .inr (.inr (.inl ⟨b, q, only hsel ▸ hj, rfl, rfl, hb⟩))
  | payload =>
    cases hq : s.rxq with
    | nil => simp [only (selected_wait ⟨hphase, hq⟩), State.Stalled, hphase, hq]
    | cons p q => simp [only (selected_pld hphase hq)]
  | fade => simp [only (selected_of_phase decode_fade hphase)]
  | assign => simp [only (selected_of_phase decode_assign hphase)]
  | correct => simp [only (selected_of_phase decode_correct hphase)]
  | submit => simp [only (selected_of_phase decode_submit hphase)]
  | delay => simp [only (selected_of_phase decode_delay hphase)]
  | unused => simp [only (selected_of_phase decode_unused hphase)]

/-! ## One step -/

/-- The environment acts after the selected operation (R177). -/
theorem step_of_exec {s u : State} {i : Instr} (hsel : selected s = some i) (hexec : exec i s = .next u) :
    step s = .next (environment u) := by
  rw [step_of_selected hsel, hexec, thenEnvironment_next]

/-- Settles O8: a step is the selected operation's answer passed on to the environment. -/
theorem stepRunsSelectedOperation : Obligations.StepRunsSelectedOperation := by
  refine fun s i hi => ⟨fun t => step_of_exec hi, fun r hr => ?_, ⟨nofun⟩⟩
  rw [step_of_selected hi, hr, thenEnvironment_refused]

/-- Using up an entry of `inputs` and an event do not meet. -/
theorem applyEvent_setInputs (s : State) (e : EnvEvent) (v : List (List EnvEvent)) :
    applyEvent (s.setInputs v) e = (applyEvent s e).setInputs v := by
  cases e <;> rfl

/-- Settles O10: the events of an entry are a fold, whose first one is taken out. -/
theorem environmentActsBetweenOperations : Obligations.EnvironmentActsBetweenOperations := by
  refine ⟨fun s => environment_nil, fun s rest h => environment_cons h, fun s e es rest h => ?_,
    applyEvent_rx, applyEvent_idleLines, applyEvent_rst⟩
  calc environment s = es.foldl applyEvent (applyEvent (s.setInputs rest) e) := environment_cons h
    _ = es.foldl applyEvent ((applyEvent s e).setInputs rest) := by rw [applyEvent_setInputs]
    _ = environment { applyEvent s e with inputs := es :: rest } :=
      (environment_cons (s := { applyEvent s e with inputs := es :: rest }) rfl).symm

/-- Settles O11: each phase selects its row's operation, whose result is known. -/
theorem phaseTransitionTable : Obligations.PhaseTransitionTable := by
  refine fun s => ⟨fun hphase hq => ⟨selected_idle hphase hq, _, rfl, rfl⟩, fun b q hphase hq hb => ?_,
    fun b q hphase hq hb => ?_, fun hphase hq => ⟨selected_wait ⟨hphase, hq⟩, s, rfl, hphase⟩,
    fun p q hphase hq htwo hmax => ⟨selected_pld hphase hq, _,
      exec_pld_of_two_le_pcnt p hq htwo hmax, hphase⟩,
    fun p q hphase hq hone => ⟨selected_pld hphase hq, _,
      consumePayload_last hq (BitVec.eq_of_toNat_eq hone), rfl⟩,
    fun hphase => ⟨selected_of_phase decode_fade hphase, _, rfl, rfl⟩,
    fun hphase => ⟨selected_of_phase decode_assign hphase, _, rfl, rfl⟩,
    fun hphase => ⟨selected_of_phase decode_correct hphase, _, rfl, rfl⟩,
    fun hphase => ⟨selected_of_phase decode_submit hphase, _, rfl, rfl⟩,
    fun hphase => ⟨selected_of_phase decode_delay hphase, _, rfl, rfl⟩⟩
  · obtain ⟨i, hi, hsel⟩ := selected_drop hphase hq hb
    exact ⟨i, _, hi, hsel, exec_drop hi hq, rfl⟩
  · obtain ⟨i, hi, hsel⟩ := selected_sof hphase hq hb
    exact ⟨i, _, hi, hsel, exec_sof hi hq, rfl⟩

/-! ## The decoder's rows (R121 to R125) -/

/-- A byte that arrives in the next entry of `inputs` is read by no operation before it. -/
theorem environment_rx {s : State} {b : Byte} {rest : List (List EnvEvent)}
    (h : s.inputs = [.rx b] :: rest) : environment s = (s.setRxq (s.rxq ++ [b])).setInputs rest :=
  environment_cons h

/-- Settles O12: POLL with nothing to read has one row; the byte comes after its operation. -/
theorem idleGoesToRender : Obligations.IdleGoesToRender := by
  refine ⟨fun s => selected_idle, fun s => rfl, fun s b rest hphase hq hin => ?_⟩
  rw [step_of_exec (selected_idle hphase hq) rfl, environment_rx (s := s.setPhase .fade) hin,
    State.setPhase_rxq, hq]
  rfl

/-- SOF is selected on a marker at the head of the stream, its operand. -/
theorem selected_sof_head {s : State} {m : Byte}
    (h : selected s = some (.sof30 m) ∨ selected s = some (.sof40 m) ∨ selected s = some (.sof60 m)) :
    isMarker m = true ∧ ∃ q, s.rxq = m :: q := by
  rcases h with h | h | h
  all_goals
    obtain ⟨-, hq, hb⟩ : s.phase = .poll ∧ (∃ q, s.rxq = m :: q) ∧ isMarker m = true := by
      simpa using selected_cases h
    exact ⟨hb, hq⟩

/-- Settles O14: the three SOF rows share the markers among them and run one operation. -/
theorem sofOpensFrame : Obligations.SofOpensFrame := by
  refine ⟨fun s b q hphase hq hb => ?_, fun s m => selected_sof_head, fun s m b q hq => ?_⟩
  · obtain ⟨i, rfl | rfl | rfl, hsel⟩ := selected_sof hphase hq hb <;> simp [hsel]
  · have hsof := openFrame_cons m hq
    exact ⟨hsof, hsof, hsof⟩

/-- Settles O15: WAIT writes nothing, so the environment alone acts; the byte it appends is then the
head. -/
theorem waitHolds : Obligations.WaitHolds := by
  refine ⟨fun s => selected_wait, fun s => rfl, fun s hstall hin => ?_, fun s b rest hstall hin => ?_⟩
  · rw [step_of_exec (selected_wait hstall) rfl, environment_nil hin]
  · refine ⟨?_, selected_pld hstall.1 rfl⟩
    rw [step_of_exec (selected_wait hstall) rfl, environment_rx hin, hstall.2]
    rfl

/-- Settles O17: the count is looked at after the pop. -/
theorem pldRefusesImpossibleCount : Obligations.PldRefusesImpossibleCount := by
  intro s p b q hq hcount
  have hframe : ¬ pcntInFrame s.pcnt = true := by
    rw [pcntInFrame_iff]
    omega
  change consumePayload s = _
  rw [consumePayload, rxPop_cons hq, if_neg hframe]

/-- The rows that pop are rows of an offered byte. -/
theorem rxq_ne_nil_of_selected {s : State} {i : Instr} (h : selected s = some i)
    (hpop : rxPopPort i = true) : s.rxq ≠ [] := by
  rcases selected_cases h with ⟨rfl, -⟩ | ⟨b, q, -, -, hq⟩ | ⟨b, q, -, -, hq, -⟩ | ⟨rfl, -⟩ |
    ⟨p, q, -, -, hq⟩ | ⟨rfl, -⟩ | ⟨rfl, -⟩ | ⟨rfl, -⟩ | ⟨rfl, -⟩ | ⟨rfl, -⟩ | ⟨rfl, -⟩
  · cases hpop
  · simp [hq]
  · simp [hq]
  · cases hpop
  · simp [hq]
  all_goals cases hpop

/-- Settles O18: the eight rows begin with a pop. -/
theorem popOfEmptyStreamRefused : Obligations.PopOfEmptyStreamRefused := by
  refine ⟨fun s b hq => ?_, fun s i => rxq_ne_nil_of_selected⟩
  have hdrop : discardByte s = .refused .rxPopEmpty := rxPop_nil hq _
  have hsof : openFrame b s = .refused .rxPopEmpty := rxPop_nil hq _
  have hpld : consumePayload s = .refused .rxPopEmpty := rxPop_nil hq _
  simp only [List.forall_mem_cons]
  exact ⟨hdrop, hdrop, hdrop, hdrop, hsof, hsof, hsof, hpld, nofun⟩

/-- Settles O39: the byte that PLD pops is handed to a continuation that does not use it. -/
theorem payloadValuesHaveNoEffect : Obligations.PayloadValuesHaveNoEffect := by
  intro s p p' q hphase
  rw [step_of_selected (selected_pld (s := { s with rxq := p :: q }) hphase rfl),
    step_of_selected (selected_pld (s := { s with rxq := p' :: q }) hphase rfl)]
  rfl

/-! ## The main loop's rows (R90, R172, R178) -/

/-- Settles O32: DELAY's row is alone in its phase, and its operation is one register write. -/
theorem delayReturnsToPoll : Obligations.DelayReturnsToPoll :=
  fun _ => ⟨selected_of_phase decode_delay, rfl⟩

/-- Where an operation writes `phase`, it writes a phase of the seven. -/
theorem exec_phase_ne_unused {i : Instr} {s t : State} (h : exec i s = .next t)
    (hs : s.phase ≠ .unused) : t.phase ≠ .unused := by
  rcases exec_next_cases h with ⟨-, rfl⟩ | ⟨-, b, q, -, rfl⟩ | ⟨m, -, b, q, -, rfl⟩ | ⟨-, rfl⟩ |
    ⟨-, b, q, -, -, ⟨-, rfl⟩ | ⟨-, rfl⟩⟩ | ⟨-, rfl⟩ | ⟨-, rfl⟩ | ⟨-, rfl⟩ | ⟨-, rfl⟩ | ⟨-, rfl⟩
  all_goals simp [hs]

/-- Settles O19: the code's words decode to ILLEGAL whatever their other bits. -/
theorem unusedPhaseRefused : Obligations.UnusedPhaseRefused := by
  refine ⟨fun w hw => ?_, fun _ => rfl, fun s hphase => ?_, fun _ _ _ => exec_phase_ne_unused,
    assertReset_phase⟩
  · rw [← DispatchWord.pack_fields w, hw]
    exact decode_unused _ _
  · rw [step_of_selected (selected_of_phase decode_unused hphase)]
    rfl

theorem wait_iff_stalled {s : State} {i : Instr} (h : selected s = some i) :
    i = .wait ↔ s.Stalled := by
  constructor
  · rintro rfl
    simpa using selected_cases h
  · exact fun hstall => Option.some.inj (h.symm.trans (selected_wait hstall))

/-- An operation that is selected and is not WAIT moves on to another phase or takes a byte. -/
theorem wait_of_stands_still {s : State} {i : Instr} (hsel : selected s = some i)
    (hexec : exec i s = .next s) : i = .wait := by
  have phase_eq {u : State} {p : Phase} (hu : exec i s = .next (u.setPhase p)) : p = s.phase :=
    congrArg State.phase (Host.Outcome.next.inj (hu.symm.trans hexec))
  rcases selected_cases hsel with ⟨rfl, hphase, -⟩ | ⟨b, q, hi, hphase, hq⟩ | ⟨b, q, hi, hphase, hq, -⟩ |
    ⟨rfl, -⟩ | ⟨p, q, rfl, -, -⟩ | ⟨rfl, hphase⟩ | ⟨rfl, hphase⟩ | ⟨rfl, hphase⟩ | ⟨rfl, hphase⟩ |
    ⟨rfl, hphase⟩ | ⟨rfl, -⟩
  · cases (phase_eq rfl).trans hphase
  · cases (phase_eq (exec_drop hi hq)).trans hphase
  · cases (phase_eq (exec_sof hi hq)).trans hphase
  · rfl
  · obtain ⟨b, q, hq, -, ⟨-, h⟩ | ⟨-, h⟩⟩ := consumePayload_next hexec
    all_goals exact absurd (hq.symm.trans (congrArg State.rxq h)) (List.cons_ne_self b q)
  · cases (phase_eq rfl).trans hphase
  · cases (phase_eq rfl).trans hphase
  · cases (phase_eq rfl).trans hphase
  · cases (phase_eq rfl).trans hphase
  · cases (phase_eq rfl).trans hphase
  · cases hexec

/-- Settles O46: WAIT is the one row whose operation writes nothing, and the stall's row. -/
theorem onlyWaitStandsStill : Obligations.OnlyWaitStandsStill := by
  refine fun s t i hsel hexec => ⟨⟨?_, ?_⟩, wait_iff_stalled hsel⟩
  · rintro rfl
    exact wait_of_stands_still hsel hexec
  · rintro rfl
    exact (Host.Outcome.next.inj hexec).symm

end Sys2Proof.Machine
end

section
/-! PROOF. The fade (spec/43_render_pipeline.md R151, R152). -/

namespace Sys2Proof.Machine

/-! ## FADE (R151) -/

theorem exec_fade (s : State) :
    exec .fade s = .next ((s.setRaw (fadeBuffer s.cfg.fadeRate s.raw)).setPhase .assign) := rfl

/-- Settles O20: the faded buffer is read pixel by pixel, and each channel of it holds the whole
quotient. -/
theorem fadeDecaysEveryChannel : Obligations.FadeDecaysEveryChannel := by
  refine fun s => ⟨selected_of_phase decode_fade, fadeBuffer s.cfg.fadeRate s.raw, exec_fade s,
    fun i => ?_⟩
  rw [get_fadeBuffer]
  exact ⟨fadeChannel_toNat _ _, fadeChannel_toNat _ _, fadeChannel_toNat _ _⟩

/-! ## Repeated fades (R152) -/

theorem fadeChannel_zero (rate : Byte) : fadeChannel rate 0 = 0 := by
  simp [fadeChannel]

theorem fadeChannel_mono (rate : Byte) {c d : Channel} (h : c.toNat ≤ d.toNat) :
    (fadeChannel rate c).toNat ≤ (fadeChannel rate d).toNat := by
  rw [fadeChannel_toNat, fadeChannel_toNat]
  exact Nat.div_le_div_right (Nat.mul_le_mul_right _ h)

/-- A legal rate takes at least 1/256 off, so less than the channel is left. -/
theorem fadeChannel_le_pred {rate : Byte} (hrate : 1 ≤ rate.toNat) (c : Channel) :
    (fadeChannel rate c).toNat ≤ c.toNat - 1 := by
  have hscaled : c.toNat * (256 - rate.toNat) ≤ c.toNat * 255 := Nat.mul_le_mul_left _ (by omega)
  rw [fadeChannel_toNat]
  omega

/-- Each fade takes at least 1 off, so as many fades as the channel's value reach 0 and stay there. -/
theorem fadeChannel_iterate_eq_zero {rate : Byte} (hrate : 1 ≤ rate.toNat) (n : Nat) (c : Channel)
    (hc : c.toNat ≤ n) : (fadeChannel rate)^[n] c = 0 := by
  induction n generalizing c with
  | zero => exact BitVec.eq_of_toNat_eq (Nat.le_zero.mp hc)
  | succ n ih =>
    have hle := fadeChannel_le_pred hrate c
    rw [Function.iterate_succ_apply]
    exact ih _ (by omega)

theorem fadeChannel_iterate_255 {rate : Byte} (hrate : 1 ≤ rate.toNat) (c : Channel) :
    (fadeChannel rate)^[255] c = 0 :=
  fadeChannel_iterate_eq_zero hrate 255 c (Nat.le_of_lt_succ c.isLt)

/-- Settles O21: every law follows from the floor of the product, the one on `n` fades by induction. -/
theorem fadeLaws : Obligations.FadeLaws := by
  intro rate hrate
  have hpred := fadeChannel_le_pred hrate
  refine ⟨fadeChannel_zero rate, fun c => ?_, fun c hc => ?_, fadeChannel_iterate_eq_zero hrate,
    fadeChannel_iterate_255 hrate, fun _ _ => fadeChannel_mono rate, fun c => ?_⟩
  · exact (hpred c).trans (Nat.sub_le _ _)
  · have hle := hpred c
    omega
  · have hle := hpred c
    have hlt : c.toNat < 2 ^ 8 := c.isLt
    omega

/-- Monotone in the channel, so after any number of fades 255 bounds the others. -/
theorem fadeChannel_iterate_mono (rate : Byte) (n : Nat) {c d : Channel} (h : c.toNat ≤ d.toNat) :
    ((fadeChannel rate)^[n] c).toNat ≤ ((fadeChannel rate)^[n] d).toNat := by
  induction n generalizing c d with
  | zero => exact h
  | succ n ih => exact ih (fadeChannel_mono rate h)

/-- Settles O22: 17 fades of 255 are evaluated, and a fade of any other channel stays below. -/
theorem referenceFadeSteps : Obligations.ReferenceFadeSteps := by
  refine ⟨fun c => ?_, fun c => ?_, by decide +kernel⟩
  · have hrate : Config.reference.fadeRate.toNat = 64 := rfl
    rw [fadeChannel_toNat, hrate]
    omega
  · have hle := fadeChannel_iterate_mono Config.reference.fadeRate 17 (d := 255)
      (Nat.le_of_lt_succ c.isLt)
    have hlast : (fadeChannel Config.reference.fadeRate)^[17] 255 = 0 := by decide +kernel
    rw [hlast] at hle
    exact BitVec.eq_of_toNat_eq (Nat.le_zero.mp hle)

end Sys2Proof.Machine
end

section
/-! PROOF. What a step does not depend on: arrivals, the idle lines, a dead latch; and what no step writes
(spec/10_state.md sections 4 and 6, spec/20_memory.md section 6, spec/93_implementation_defined.md U3, U4). -/

namespace Sys2Proof.Machine

/-! ## The configuration -/

/-- No event of the environment changes the configuration. -/
theorem applyEvent_cfg (s : State) (e : EnvEvent) : (applyEvent s e).cfg = s.cfg := by
  cases e <;> rfl

theorem environment_cfg (s : State) : (environment s).cfg = s.cfg :=
  environment_keeps (P := fun t => t.cfg = s.cfg) (fun _ _ h => h)
    (fun t e h => (applyEvent_cfg t e).trans h) rfl

/-- Settles O38: neither the operation nor the environment writes the configuration. -/
theorem configurationNeverWritten : Obligations.ConfigurationNeverWritten := by
  intro s t h
  obtain ⟨i, u, -, hexec, rfl⟩ := step_next h
  obtain ⟨hcfg, -⟩ := exec_keeps hexec
  exact (environment_cfg u).trans hcfg

/-! ## Arrivals (R63, D21) -/

/-- The selection looks at the phase and at the byte on offer; with none on offer POLL and PAYLOAD have
rows of their own, IDLE and WAIT. -/
theorem selected_congr {s s' : State} {i : Instr} (h : selected s = some i) (hidle : i ≠ .idle)
    (hwait : i ≠ .wait) (hphase : s'.phase = s.phase)
    (hhead : ∀ b q, s.rxq = b :: q → ∃ q', s'.rxq = b :: q') : selected s' = some i := by
  cases hq : s.rxq with
  | cons b q =>
    obtain ⟨q', hq'⟩ := hhead b q hq
    rw [← h, selected_of_rxq_cons hq', selected_of_rxq_cons hq, hphase]
  | nil =>
    rcases selected_cases h with ⟨rfl, -⟩ | ⟨b, q, -, -, hcons⟩ | ⟨b, q, -, -, hcons, -⟩ | ⟨rfl, -⟩ |
      ⟨p, q, -, -, hcons⟩ | ⟨rfl, hs⟩ | ⟨rfl, hs⟩ | ⟨rfl, hs⟩ | ⟨rfl, hs⟩ | ⟨rfl, hs⟩ | ⟨rfl, hs⟩
    · exact absurd rfl hidle
    · cases hq.symm.trans hcons
    · cases hq.symm.trans hcons
    · exact absurd rfl hwait
    · cases hq.symm.trans hcons
    · exact selected_of_phase decode_fade (hphase.trans hs)
    · exact selected_of_phase decode_assign (hphase.trans hs)
    · exact selected_of_phase decode_correct (hphase.trans hs)
    · exact selected_of_phase decode_submit (hphase.trans hs)
    · exact selected_of_phase decode_delay (hphase.trans hs)
    · exact selected_of_phase decode_unused (hphase.trans hs)

/-- Settles O42: an appended byte passes through every operation and is not the head of a stream that has
one. -/
theorem arrivalsCommuteWithOperations : Obligations.ArrivalsCommuteWithOperations := by
  refine ⟨fun i s t b h => exec_append h [b], fun i s b h hidle hwait => ?_⟩
  exact selected_congr (s' := { s with rxq := s.rxq ++ [b] }) h hidle hwait rfl
    fun c q hq => ⟨q ++ [b], by simp [hq]⟩

/-! ## Two states through one step -/

/-- A relation between states that every event keeps is kept by the environment, provided the states have
the same `inputs` and using up an entry keeps it. -/
theorem environment_relates {R : State → State → Prop} (hinputs : ∀ s s', R s s' → s'.inputs = s.inputs)
    (huse : ∀ s s' v, R s s' → R (s.setInputs v) (s'.setInputs v))
    (hevent : ∀ s s' e, R s s' → R (applyEvent s e) (applyEvent s' e)) {s s' : State} (h : R s s') :
    R (environment s) (environment s') := by
  have events_relate (es : List EnvEvent) (t t' : State) (ht : R t t') :
      R (es.foldl applyEvent t) (es.foldl applyEvent t') := by
    induction es generalizing t t' with
    | nil => exact ht
    | cons e es ih => exact ih _ _ (hevent t t' e ht)
  cases hin : s.inputs with
  | nil => rwa [environment_nil hin, environment_nil ((hinputs s s' h).trans hin)]
  | cons es rest =>
    rw [environment_cons hin, environment_cons ((hinputs s s' h).trans hin)]
    exact events_relate es _ _ (huse s s' rest h)

/-! ### The idle lines (U3) -/

theorem selected_setRxIdle (s : State) (x : Byte) : selected (s.setRxIdle x) = selected s := by
  cases hq : s.rxq with
  | nil =>
    rw [selected_of_rxq_nil (s := s.setRxIdle x) hq, selected_of_rxq_nil hq]
    exact decode_pack_false_congr _ _ _
  | cons b q => rw [selected_of_rxq_cons (s := s.setRxIdle x) hq, selected_of_rxq_cons hq]; rfl

theorem environment_setRxIdle (s : State) (x : Byte) :
    ∃ y, environment (s.setRxIdle x) = (environment s).setRxIdle y := by
  refine environment_relates (R := fun t t' => ∃ y, t' = t.setRxIdle y) ?_ ?_ ?_ ⟨x, rfl⟩
  · rintro t _ ⟨y, rfl⟩
    rfl
  · rintro t _ v ⟨y, rfl⟩
    exact ⟨y, rfl⟩
  · rintro t _ e ⟨y, rfl⟩
    cases e with
    | rx b => exact ⟨y, rfl⟩
    | idleLines b => exact ⟨b, rfl⟩
    | rst => exact ⟨y, rfl⟩

/-- Settles O41: the lines do not decide the selection, no operation reads them, and an event writes them
or keeps them. -/
theorem idleLinesHaveNoEffect : Obligations.IdleLinesHaveNoEffect := by
  intro s t x h
  obtain ⟨i, u, hsel, hexec, rfl⟩ := step_next h
  obtain ⟨y, hy⟩ := environment_setRxIdle u x
  refine ⟨y, ?_⟩
  exact (step_of_exec ((selected_setRxIdle s x).trans hsel) (exec_setRxIdle hexec x)).trans
    (congrArg Host.Outcome.next hy)

/-! ### The latch (R29, U4) -/

/-- Two states that differ in `sof` at most, and in PAYLOAD not even there. -/
def SameButDeadLatch (s s' : State) : Prop :=
  ∃ y, s' = s.setSof y ∧ (s.phase = .payload → y = s.sof)

/-- Outside PAYLOAD no operation reads `sof`, and one that enters PAYLOAD writes it. -/
theorem exec_setSof {i : Instr} {s t : State} (x : Byte) (hphase : s.phase ≠ .payload)
    (hsel : selected s = some i) (h : exec i s = .next t) :
    ∃ t', exec i (s.setSof x) = .next t' ∧ SameButDeadLatch t t' := by
  rcases exec_next_cases h with ⟨rfl, rfl⟩ | ⟨⟨c, hi⟩, b, q, hq, rfl⟩ | ⟨m, hi, b, q, hq, rfl⟩ |
    ⟨rfl, -⟩ | ⟨⟨p, rfl⟩, -⟩ | ⟨rfl, rfl⟩ | ⟨rfl, rfl⟩ | ⟨rfl, rfl⟩ | ⟨rfl, rfl⟩ | ⟨rfl, rfl⟩
  · exact ⟨_, rfl, x, rfl, nofun⟩
  · exact ⟨_, exec_drop (s := s.setSof x) hi hq, x, rfl, nofun⟩
  · exact ⟨_, exec_sof (s := s.setSof x) hi hq, m, rfl, fun _ => rfl⟩
  · obtain ⟨hs, -⟩ := (wait_iff_stalled hsel).mp rfl
    exact absurd hs hphase
  · obtain ⟨hs, -⟩ : s.phase = .payload ∧ ∃ q, s.rxq = p :: q := by simpa using selected_cases hsel
    exact absurd hs hphase
  all_goals exact ⟨_, rfl, x, rfl, nofun⟩

theorem environment_sameButDeadLatch {s s' : State} (h : SameButDeadLatch s s') :
    SameButDeadLatch (environment s) (environment s') := by
  refine environment_relates ?_ ?_ ?_ h
  · rintro t _ ⟨y, rfl, -⟩
    rfl
  · rintro t _ v ⟨y, rfl, hy⟩
    exact ⟨y, rfl, hy⟩
  · rintro t _ e ⟨y, rfl, hy⟩
    cases e with
    | rx b => exact ⟨y, rfl, hy⟩
    | idleLines b => exact ⟨y, rfl, hy⟩
    | rst => exact ⟨0x00, rfl, fun _ => rfl⟩

/-- Settles O40: `sof` does not decide the selection, and the relation goes through the operation and
through the environment. -/
theorem latchDeadOutsidePayload : Obligations.LatchDeadOutsidePayload := by
  intro s t x hphase h
  obtain ⟨i, u, hsel, hexec, rfl⟩ := step_next h
  obtain ⟨u', hexec', hu'⟩ := exec_setSof x hphase hsel hexec
  obtain ⟨y, heq, hy⟩ := environment_sameButDeadLatch hu'
  exact ⟨y, (step_of_exec (s := s.setSof x) hsel hexec').trans (congrArg Host.Outcome.next heq), hy⟩

end Sys2Proof.Machine
end

section
/-! PROOF. Reset, and the invariants of the sequencer and the mask (spec/10_state.md R36, R37,
spec/44_main_loop.md R173, spec/70_reset_and_hazards.md). -/

namespace Sys2Proof.Machine

/-! ## Reset (R36, R220, R222) -/

/-- Settles O52: a reset is one record of constants and of what it keeps, and so is the state after it in
the reference configuration. -/
theorem resetValues : Obligations.ResetValues :=
  ⟨fun _ => rfl, rfl, PixelBuffer.get_fill Pixel.black, PixelBuffer.get_fill Pixel.black, rfl, rfl, rfl, rfl⟩

/-- Settles O53: WAIT leaves the stalled state to the environment, and the reset keeps its empty
stream. -/
theorem resetReleasesStall : Obligations.ResetReleasesStall := by
  intro s rest hstall hin
  have henv : environment s = assertReset (s.setInputs rest) := environment_cons hin
  refine ⟨assertReset (s.setInputs rest), ?_, rfl, rfl, rfl, rfl, hstall.2, rfl,
    selected_idle rfl hstall.2⟩
  rw [step_of_exec (selected_wait hstall) rfl, henv]

/-! ## The sequencer's invariant (R37) -/

/-- Outside PAYLOAD the invariant asks for an empty count only. -/
theorem sequencerInv_of_pcnt_zero {s : State} (hunused : s.phase ≠ .unused)
    (hpayload : s.phase ≠ .payload) (hpcnt : s.pcnt = 0) : s.SequencerInv :=
  ⟨hunused, ⟨fun h => absurd h hpayload, by simp [hpcnt]⟩, fun _ => hpcnt, fun h => absurd h hpayload⟩

/-- In PAYLOAD it asks for a count of a frame and a marker. -/
theorem sequencerInv_of_payload {s : State} (hphase : s.phase = .payload) (hone : 1 ≤ s.pcnt.toNat)
    (hmax : s.pcnt.toNat ≤ 13) (hsof : isMarker s.sof = true) : s.SequencerInv :=
  ⟨by simp [hphase], by simp [hphase, hone, hmax], fun h => absurd hphase h, fun _ => hsof⟩

theorem assertReset_sequencerInv (s : State) : (assertReset s).SequencerInv :=
  sequencerInv_of_pcnt_zero nofun nofun rfl

/-- Settles O43: a reset leaves POLL with an empty count, and the configured mask. -/
theorem resetMeetsInvariants : Obligations.ResetMeetsInvariants :=
  ⟨sequencerInv_of_pcnt_zero nofun nofun rfl, by decide,
    fun s hmask => ⟨assertReset_sequencerInv s, hmask, hmask⟩⟩

/-- No event but a reset touches what the invariant speaks of. -/
theorem environment_sequencerInv {s : State} (h : s.SequencerInv) : (environment s).SequencerInv := by
  refine environment_keeps (P := State.SequencerInv) (fun _ _ h => h) (fun t e h => ?_) h
  cases e with
  | rx b => exact h
  | idleLines b => exact h
  | rst => exact assertReset_sequencerInv t

theorem environment_maskInv {s : State} (h : s.MaskInv) : (environment s).MaskInv := by
  refine environment_keeps (P := State.MaskInv) (fun _ _ h => h) (fun t e h => ?_) h
  cases e with
  | rx b => exact h
  | idleLines b => exact h
  | rst => exact ⟨h.2, h.2⟩

/-- From a state with the invariant the selected operation gives a next state with it, and with no
reserved bit in the mask if there was none: a commit writes what a marker carries. -/
theorem exec_of_sequencerInv {s : State} (h : s.SequencerInv) :
    ∃ i u, selected s = some i ∧ exec i s = .next u ∧ u.SequencerInv ∧ (s.MaskInv → u.MaskInv) := by
  obtain ⟨hunused, hcount, hzero, hsof⟩ := h
  have outside {u : State} (hu : u.phase ≠ .unused ∧ u.phase ≠ .payload) (hpcnt : u.pcnt = s.pcnt)
      (hs : s.phase ≠ .payload) : u.SequencerInv :=
    sequencerInv_of_pcnt_zero hu.1 hu.2 (hpcnt.trans (hzero hs))
  cases hphase : s.phase with
  | poll =>
    have hs : s.phase ≠ .payload := by simp [hphase]
    cases hq : s.rxq with
    | nil => exact ⟨.idle, _, selected_idle hphase hq, rfl, outside ⟨nofun, nofun⟩ rfl hs, id⟩
    | cons b q =>
      cases hb : isMarker b with
      | false =>
        obtain ⟨i, hi, hsel⟩ := selected_drop hphase hq hb
        exact ⟨i, _, hsel, exec_drop hi hq, outside ⟨nofun, nofun⟩ rfl hs, id⟩
      | true =>
        obtain ⟨i, hi, hsel⟩ := selected_sof hphase hq hb
        exact ⟨i, _, hsel, exec_sof hi hq, sequencerInv_of_payload rfl (by simp) (by simp) hb, id⟩
  | payload =>
    obtain ⟨hone, hmax⟩ := hcount.mp hphase
    have hmarker := hsof hphase
    cases hq : s.rxq with
    | nil =>
      exact ⟨.wait, s, selected_wait ⟨hphase, hq⟩, rfl, sequencerInv_of_payload hphase hone hmax hmarker, id⟩
    | cons p q =>
      have hsel := selected_pld hphase hq
      by_cases hlast : s.pcnt = 1
      · exact ⟨.pld p, _, hsel, consumePayload_last hq hlast, sequencerInv_of_pcnt_zero nofun nofun rfl,
          fun hmask => ⟨toNat_extract_le hmarker, hmask.2⟩⟩
      · have hframe : pcntInFrame s.pcnt = true := (pcntInFrame_iff _).mpr ⟨hone, hmax⟩
        have hpcnt : (s.pcnt - 1).toNat = s.pcnt.toNat - 1 ∧ s.pcnt.toNat ≠ 1 := by bv_omega
        exact ⟨.pld p, _, hsel, consumePayload_more hq hframe hlast,
          sequencerInv_of_payload hphase (by simp; omega) (by simp; omega) hmarker, id⟩
  | fade =>
    exact ⟨.fade, _, selected_of_phase decode_fade hphase, rfl,
      outside ⟨nofun, nofun⟩ rfl (by simp [hphase]), id⟩
  | assign =>
    exact ⟨.assign, _, selected_of_phase decode_assign hphase, rfl,
      outside ⟨nofun, nofun⟩ rfl (by simp [hphase]), id⟩
  | correct =>
    exact ⟨.correct, _, selected_of_phase decode_correct hphase, rfl,
      outside ⟨nofun, nofun⟩ rfl (by simp [hphase]), id⟩
  | submit =>
    exact ⟨.submit, _, selected_of_phase decode_submit hphase, rfl,
      outside ⟨nofun, nofun⟩ rfl (by simp [hphase]), id⟩
  | delay =>
    exact ⟨.delay, _, selected_of_phase decode_delay hphase, rfl,
      outside ⟨nofun, nofun⟩ rfl (by simp [hphase]), id⟩
  | unused => exact absurd hphase hunused

/-- Every step from a state with the invariant leads to a state with it. -/
theorem step_of_sequencerInv {s : State} (h : s.SequencerInv) :
    ∃ t, step s = .next t ∧ t.SequencerInv ∧ (s.MaskInv → t.MaskInv) := by
  obtain ⟨i, u, hsel, hexec, hu, hmask⟩ := exec_of_sequencerInv h
  exact ⟨environment u, step_of_exec hsel hexec, environment_sequencerInv hu,
    fun hs => environment_maskInv (hmask hs)⟩

/-- Settles O44: the one next state that a step gives meets the invariants. -/
theorem stepKeepsInvariants : Obligations.StepKeepsInvariants := by
  constructor
  · intro s t hs h
    obtain ⟨u, hu, hinv, -⟩ := step_of_sequencerInv hs
    obtain rfl := Host.Outcome.next.inj (h.symm.trans hu)
    exact hinv
  · intro s t hs hmask h
    obtain ⟨u, hu, -, hinv⟩ := step_of_sequencerInv hs
    obtain rfl := Host.Outcome.next.inj (h.symm.trans hu)
    exact hinv hmask

/-- Settles O45: the invariant gives each of the steps a next state that meets it again. -/
theorem loopRunsForever : Obligations.LoopRunsForever := by
  intro s hs k
  induction k generalizing s with
  | zero => exact ⟨s, rfl, hs⟩
  | succ k ih =>
    obtain ⟨u, hu, hinv, -⟩ := step_of_sequencerInv hs
    rw [steps_succ k hu]
    exact ih u hinv

end Sys2Proof.Machine
end

section
/-! PROOF. Runs of operations while bytes arrive and no reset is applied: a stall, a frame, a tick
(spec/41_frame_decoder.md R126, spec/43_render_pipeline.md R157, R158, spec/44_main_loop.md R174,
spec/60_exceptions.md R192, R198). -/

namespace Sys2Proof.Machine

/-! ## Stretches of the environment's list -/

theorem noReset_take_of_le {l : List (List EnvEvent)} {j k : Nat} (hjk : j ≤ k)
    (h : noReset (l.take k) = true) : noReset (l.take j) = true := by
  rw [← List.take_append_drop j (l.take k), List.take_take, Nat.min_eq_left hjk, noReset_append,
    Bool.and_eq_true] at h
  exact h.1

theorem noReset_take {l : List (List EnvEvent)} (k : Nat) (h : noReset l = true) :
    noReset (l.take k) = true ∧ noReset (l.drop k) = true := by
  rwa [← Bool.and_eq_true, ← noReset_append, List.take_append_drop]

theorem arrivals_take_append_drop (l : List (List EnvEvent)) (k : Nat) :
    arrivals (l.take k) ++ arrivals (l.drop k) = arrivals l := by
  rw [← arrivals_append, List.take_append_drop]

theorem arrivals_take_add (l : List (List EnvEvent)) (j k : Nat) :
    arrivals (l.take j) ++ arrivals ((l.drop j).take k) = arrivals (l.take (j + k)) := by
  rw [← arrivals_append, ← List.take_add]

/-! ## Runs -/

/-- `s` after `k` entries of its `inputs` without a reset: the bytes that came stand behind the stream,
the idle lines carry `x`. -/
def State.later (s : State) (k : Nat) (x : Byte) : State :=
  ((s.setRxq (s.rxq ++ arrivals (s.inputs.take k))).setRxIdle x).setInputs (s.inputs.drop k)

@[simp] theorem State.later_cfg (s : State) (k : Nat) (x : Byte) : (s.later k x).cfg = s.cfg := rfl
@[simp] theorem State.later_mask (s : State) (k : Nat) (x : Byte) : (s.later k x).mask = s.mask := rfl
@[simp] theorem State.later_raw (s : State) (k : Nat) (x : Byte) : (s.later k x).raw = s.raw := rfl
@[simp] theorem State.later_cor (s : State) (k : Nat) (x : Byte) : (s.later k x).cor = s.cor := rfl
@[simp] theorem State.later_phase (s : State) (k : Nat) (x : Byte) : (s.later k x).phase = s.phase := rfl
@[simp] theorem State.later_pcnt (s : State) (k : Nat) (x : Byte) : (s.later k x).pcnt = s.pcnt := rfl
@[simp] theorem State.later_sof (s : State) (k : Nat) (x : Byte) : (s.later k x).sof = s.sof := rfl
@[simp] theorem State.later_rxq (s : State) (k : Nat) (x : Byte) :
    (s.later k x).rxq = s.rxq ++ arrivals (s.inputs.take k) := rfl
@[simp] theorem State.later_txlog (s : State) (k : Nat) (x : Byte) : (s.later k x).txlog = s.txlog := rfl
@[simp] theorem State.later_inputs (s : State) (k : Nat) (x : Byte) :
    (s.later k x).inputs = s.inputs.drop k := rfl

/-- `k` steps from `s` do to the block what leads it to `u`, and what arrives meanwhile waits. -/
def Runs (k : Nat) (s u : State) : Prop :=
  u.inputs = s.inputs ∧ ∃ x, steps k s = .next (u.later k x)

/-- No operation writes the environment's list. -/
theorem Runs.inputs {k : Nat} {s u : State} (h : Runs k s u) : u.inputs = s.inputs := h.1

/-- The environment uses up one more entry. -/
theorem environment_later {s : State} {k : Nat} (x : Byte)
    (h : noReset (s.inputs.take (k + 1)) = true) :
    ∃ y, environment (s.later k x) = s.later (k + 1) y := by
  rw [List.take_add, noReset_append, Bool.and_eq_true] at h
  obtain ⟨y, hy⟩ := environment_noReset (s.later k x) h.2
  refine ⟨y, hy.trans ?_⟩
  simp only [State.later, ← arrivals_take_add s.inputs k 1, ← List.append_assoc, ← List.drop_drop]
  rfl

theorem later_zero (s : State) : s.later 0 s.rxIdle = s := by
  simp [State.later]
  rfl

/-- An operation may be run before or after what the environment does. -/
theorem exec_later {i : Instr} {u v : State} (h : exec i u = .next v) (k : Nat) (x : Byte) :
    exec i (u.later k x) = .next (v.later k x) := by
  obtain ⟨-, -, hinputs, -⟩ := exec_keeps h
  rw [State.later, State.later, hinputs]
  exact exec_setInputs (exec_setRxIdle (exec_append h _) x) _

/-- One operation more, whatever is selected when its turn comes. -/
theorem Runs.succ {k : Nat} {s u v : State} {i : Instr} (h : Runs k s u)
    (hsel : ∀ x, selected (u.later k x) = some i) (hexec : exec i u = .next v)
    (hreset : noReset (s.inputs.take (k + 1)) = true) : Runs (k + 1) s v := by
  obtain ⟨hu, x, hx⟩ := h
  obtain ⟨-, -, hv, -⟩ := exec_keeps hexec
  have hinputs : v.inputs = s.inputs := hv.trans hu
  obtain ⟨y, hy⟩ := environment_later (s := v) x (hinputs ▸ hreset)
  refine ⟨hinputs, y, ?_⟩
  rw [steps_add k 1 hx, steps_succ 0 (step_of_exec (hsel x) (exec_later hexec k x)), hy, steps_zero]

/-- One operation more that arrivals do not keep from being selected. -/
theorem Runs.succ_of_selected {k : Nat} {s u v : State} {i : Instr} (h : Runs k s u)
    (hsel : selected u = some i) (hidle : i ≠ .idle) (hwait : i ≠ .wait) (hexec : exec i u = .next v)
    (hreset : noReset (s.inputs.take (k + 1)) = true) : Runs (k + 1) s v :=
  h.succ (fun _ => selected_congr hsel hidle hwait rfl fun _ q hq =>
    ⟨q ++ arrivals (u.inputs.take k), by simp [hq]⟩) hexec hreset

theorem runs_zero (s : State) : Runs 0 s s :=
  ⟨rfl, s.rxIdle, by rw [later_zero, steps_zero]⟩

/-- The first operation of a run. -/
theorem runs_one {s u : State} {i : Instr} (hsel : selected s = some i) (hexec : exec i s = .next u)
    (hreset : noReset (s.inputs.take 1) = true) : Runs 1 s u := by
  obtain ⟨-, -, hinputs, -⟩ := exec_keeps hexec
  obtain ⟨x, hx⟩ := environment_later (s := u) (k := 0) u.rxIdle (by rwa [hinputs])
  refine ⟨hinputs, x, ?_⟩
  rw [steps_succ 0 (step_of_exec hsel hexec), ← hx, later_zero, steps_zero]

/-! ## Stalls (R178) -/

/-- A stalled block goes on being stalled while no byte arrives. -/
theorem Runs.stall {k : Nat} {s u : State} (h : Runs k s u) (hstall : u.Stalled) (n : Nat)
    (hreset : noReset (s.inputs.take (k + n)) = true) (hsilent : arrivals (s.inputs.take (k + n)) = []) :
    Runs (k + n) s u := by
  induction n with
  | zero => exact h
  | succ n ih =>
    rw [← Nat.add_assoc, ← arrivals_take_add, List.append_eq_nil_iff] at hsilent
    have hrun := ih (noReset_take_of_le (by omega) hreset) hsilent.1
    refine hrun.succ (i := .wait) (fun x => selected_wait ⟨hstall.1, ?_⟩) rfl hreset
    rw [State.later_rxq, hstall.2, hrun.inputs]
    exact hsilent.1

/-- Settles O47: the stall is a run of WAITs, after which no byte stands behind the empty stream. -/
theorem stallPersistsWithoutBytes : Obligations.StallPersistsWithoutBytes := by
  intro k s hstall hreset hsilent
  rw [← Nat.zero_add k] at hreset hsilent
  obtain ⟨-, x, hx⟩ := (runs_zero s).stall hstall k hreset hsilent
  refine ⟨x, ?_⟩
  rw [State.later, hsilent, List.append_nil, Nat.zero_add] at hx
  exact hx

/-! ## Frames (R126, R192) -/

/-- The state in which SOF of a marker leaves the block. -/
theorem runs_sof {s : State} {b : Byte} {q : List Byte} (hphase : s.phase = .poll) (hq : s.rxq = b :: q)
    (hb : isMarker b = true) (hreset : noReset (s.inputs.take 1) = true) :
    Runs 1 s ((((s.setRxq q).setSof b).setPcnt payloadLen).setPhase .payload) := by
  obtain ⟨i, hi, hsel⟩ := selected_sof hphase hq hb
  exact runs_one hsel (exec_sof hi hq) hreset

/-- A count of four bits holds what is left of it. -/
theorem toNat_ofNat_pcnt_sub (c : BitVec 4) (n : Nat) :
    (BitVec.ofNat 4 (c.toNat - n)).toNat = c.toNat - n := by
  rw [BitVec.toNat_ofNat]
  omega

/-- Payload bytes that do not complete the frame are counted down. -/
theorem Runs.payload {k : Nat} {s u : State} (h : Runs k s u) (hphase : u.phase = .payload)
    (hmax : u.pcnt.toNat ≤ 13) (n : Nat) (hn : n < u.pcnt.toNat) (hlength : n ≤ u.rxq.length)
    (hreset : noReset (s.inputs.take (k + n)) = true) :
    Runs (k + n) s ((u.setRxq (u.rxq.drop n)).setPcnt (BitVec.ofNat 4 (u.pcnt.toNat - n))) := by
  induction n with
  | zero => simpa [State.setRxq, State.setPcnt] using h
  | succ n ih =>
    have hrun := ih (by omega) (by omega) (noReset_take_of_le (by omega) hreset)
    have hq := List.drop_eq_getElem_cons hlength
    have hpcnt := toNat_ofNat_pcnt_sub u.pcnt n
    have hexec := exec_pld_of_two_le_pcnt u.rxq[n] (q := u.rxq.drop (n + 1))
      (s := (u.setRxq (u.rxq.drop n)).setPcnt (BitVec.ofNat 4 (u.pcnt.toNat - n))) hq
      (by simp only [State.setPcnt_pcnt]; omega) (by simp only [State.setPcnt_pcnt]; omega)
    rw [State.setPcnt_pcnt, hpcnt] at hexec
    exact hrun.succ_of_selected (selected_pld hphase hq) nofun nofun hexec hreset

/-- A frame of which the source supplies less than the whole: there is a marker, and too few bytes
follow. -/
theorem decodeOfTick_eq_none {mask : BitVec 8} {q : List Byte} (h : decodeOfTick mask q = none) :
    ∃ b rest, q = b :: rest ∧ isMarker b = true ∧ rest.length < 13 := by
  cases q with
  | nil => cases h
  | cons b rest =>
    simp only [decodeOfTick] at h
    split_ifs at h with hb hlength
    exact ⟨b, rest, rfl, by simpa using hb, hlength⟩

/-- An incomplete frame is consumed as far as it goes, and the block is left in a stall. -/
theorem runs_incomplete_frame {s : State} {b : Byte} {rest : List Byte} (hphase : s.phase = .poll)
    (hq : s.rxq = b :: rest) (hb : isMarker b = true) (hlength : rest.length < 13)
    (hreset : noReset s.inputs = true) :
    Runs (1 + rest.length) s ((((s.setRxq []).setSof b).setPcnt (BitVec.ofNat 4 (13 - rest.length))).setPhase
      .payload) := by
  have hsof := runs_sof hphase hq hb (noReset_take 1 hreset).1
  have hpayload := hsof.payload rfl (by simp) rest.length (by simpa) le_rfl (noReset_take _ hreset).1
  simpa [State.setPcnt, State.setRxq, State.setPhase, State.setSof] using hpayload

/-- Settles O49: SOF, a PLD for each byte that is there, and a stall with the rest of the count. -/
theorem incompleteFrameHangs : Obligations.IncompleteFrameHangs := by
  intro s hphase hdecode hreset hsilent k hk
  obtain ⟨b, rest, hq, hb, hlength⟩ := decodeOfTick_eq_none hdecode
  rw [hq, List.length_cons, Nat.add_comm] at hk
  obtain ⟨n, rfl⟩ := Nat.exists_eq_add_of_le hk
  rw [← arrivals_take_append_drop s.inputs (1 + rest.length + n), List.append_eq_nil_iff] at hsilent
  obtain ⟨-, x, hx⟩ := (runs_incomplete_frame hphase hq hb hlength hreset).stall ⟨rfl, rfl⟩ n
    (noReset_take _ hreset).1 hsilent.1
  refine ⟨_, hx, ⟨rfl, ?_⟩, by simp, by simp, by simp, by simp, ?_⟩
  · simpa using hsilent.1
  · have hpcnt : (13 - rest.length) % 16 = 13 - rest.length := by omega
    simp [hq, hpcnt, frameLen]
    omega

/-! ## Frames that complete (R198) -/

/-- The bytes that are to be read while no reset comes: those in the stream, then those to arrive. -/
def State.pending (s : State) : List Byte := s.rxq ++ arrivals s.inputs

theorem pending_later (s : State) (k : Nat) (x : Byte) : (s.later k x).pending = s.pending := by
  simp [State.pending, List.append_assoc, arrivals_take_append_drop]

/-- A step of the selected operation while no reset comes. -/
theorem step_later {s u : State} {i : Instr} (hsel : selected s = some i) (hexec : exec i s = .next u)
    (hreset : noReset s.inputs = true) : ∃ x, step s = .next (u.later 1 x) := by
  obtain ⟨-, x, hx⟩ := runs_one hsel hexec (noReset_take 1 hreset).1
  rw [steps_succ 0 (step_of_exec hsel hexec), steps_zero] at hx
  exact ⟨x, (step_of_exec hsel hexec).trans hx⟩

/-- `t` is the state in which the frame that `s` is receiving has been committed: the count of bytes is
gone from what was to be read, and nothing else is changed. -/
def CommitsFrame (s t : State) : Prop :=
  t.phase = .fade ∧ t.mask = extract s.sof ∧ t.pcnt = 0 ∧ t.sof = s.sof ∧ t.raw = s.raw ∧ t.cor = s.cor ∧
    t.txlog = s.txlog ∧ t.pending = s.pending.drop s.pcnt.toNat

/-- The last payload byte commits it. -/
theorem commitsFrame_of_last_byte {s : State} {p : Byte} {q : List Byte} (hq : s.rxq = p :: q)
    (hlast : s.pcnt.toNat = 1) (x : Byte) :
    CommitsFrame s
      (((((s.setRxq q).setPcnt 0).setMask (extract s.sof)).setPhase .fade).later 1 x) := by
  rw [CommitsFrame, pending_later, hlast]
  simp [State.pending, hq]

/-- A hold leaves no trace in the commit. -/
theorem CommitsFrame.of_hold {s t : State} {x : Byte} (h : CommitsFrame (s.later 1 x) t) :
    CommitsFrame s t := by
  rwa [CommitsFrame, pending_later] at h

/-- Nor does a payload byte but in the count. -/
theorem CommitsFrame.of_payload {s t : State} {p x : Byte} {q : List Byte} (hq : s.rxq = p :: q)
    (htwo : 2 ≤ s.pcnt.toNat)
    (h : CommitsFrame (((s.setRxq q).setPcnt (BitVec.ofNat 4 (s.pcnt.toNat - 1))).later 1 x) t) :
    CommitsFrame s t := by
  have hdrop (c : BitVec 4) : ((s.setRxq q).setPcnt c).pending.drop (s.pcnt.toNat - 1) =
      s.pending.drop s.pcnt.toNat := by
    obtain ⟨n, hn⟩ := Nat.exists_eq_add_of_le' (show 1 ≤ s.pcnt.toNat by omega)
    simp [State.pending, hq, hn]
  simpa [CommitsFrame, pending_later, toNat_ofNat_pcnt_sub, -BitVec.toNat_ofNat, hdrop] using h

/-- A frame is being received whose missing bytes are all to come. -/
def AwaitsPayload (s : State) : Prop :=
  s.phase = .payload ∧ 1 ≤ s.pcnt.toNat ∧ s.pcnt.toNat ≤ 13 ∧ noReset s.inputs = true ∧
    s.pcnt.toNat ≤ s.pending.length

/-- A hold uses up an entry of `inputs`, which still has the bytes. -/
theorem AwaitsPayload.hold {s : State} (h : AwaitsPayload s) (hq : s.rxq = []) :
    ∃ u, step s = .next u ∧ AwaitsPayload u ∧
      u.pcnt.toNat + u.inputs.length < s.pcnt.toNat + s.inputs.length ∧
      ∀ t, CommitsFrame u t → CommitsFrame s t := by
  obtain ⟨hphase, hone, hmax, hreset, hpending⟩ := h
  obtain ⟨x, hx⟩ := step_later (selected_wait ⟨hphase, hq⟩) rfl hreset
  refine ⟨s.later 1 x, hx, ⟨hphase, hone, hmax, (noReset_take 1 hreset).2, ?_⟩, ?_, fun t => .of_hold⟩
  · rwa [pending_later]
  · have hinputs : s.inputs ≠ [] := fun hnil => by
      simp [State.pending, hq, hnil] at hpending
      omega
    have hlength := List.length_pos_iff.mpr hinputs
    rw [State.later_pcnt, State.later_inputs, List.length_drop]
    omega

/-- A payload byte lowers the count. -/
theorem AwaitsPayload.payload {s : State} (h : AwaitsPayload s) {p : Byte} {q : List Byte}
    (hq : s.rxq = p :: q) (hlast : s.pcnt.toNat ≠ 1) :
    ∃ u, step s = .next u ∧ AwaitsPayload u ∧
      u.pcnt.toNat + u.inputs.length < s.pcnt.toNat + s.inputs.length ∧
      ∀ t, CommitsFrame u t → CommitsFrame s t := by
  obtain ⟨hphase, hone, hmax, hreset, hpending⟩ := h
  have htwo : 2 ≤ s.pcnt.toNat := by omega
  obtain ⟨x, hx⟩ := step_later (selected_pld hphase hq) (exec_pld_of_two_le_pcnt p hq htwo hmax) hreset
  have hcount := toNat_ofNat_pcnt_sub s.pcnt 1
  refine ⟨((s.setRxq q).setPcnt (BitVec.ofNat 4 (s.pcnt.toNat - 1))).later 1 x, hx, ⟨hphase, ?_⟩, ?_,
    fun t => .of_payload hq htwo⟩
  · rw [pending_later, State.later_pcnt, State.setPcnt_pcnt, hcount]
    refine ⟨by omega, by omega, (noReset_take 1 hreset).2, ?_⟩
    simp only [State.pending, hq, List.cons_append, List.length_cons] at hpending
    exact Nat.sub_le_of_le_add hpending
  · rw [State.later_pcnt, State.setPcnt_pcnt, hcount, State.later_inputs, List.length_drop]
    simp only [State.setPcnt_inputs, State.setRxq_inputs]
    omega

/-- Within the missing bytes and the entries of `inputs`, counted together, the frame is committed. -/
theorem AwaitsPayload.exists_commitsFrame {s : State} (h : AwaitsPayload s) :
    ∃ k t, k ≤ s.pcnt.toNat + s.inputs.length ∧ steps k s = .next t ∧ CommitsFrame s t := by
  induction hsize : s.pcnt.toNat + s.inputs.length using Nat.strong_induction_on generalizing s with
  | _ size ih =>
    subst hsize
    have advance {u : State} (hstep : step s = .next u) (hu : AwaitsPayload u)
        (hlt : u.pcnt.toNat + u.inputs.length < s.pcnt.toNat + s.inputs.length)
        (hback : ∀ t, CommitsFrame u t → CommitsFrame s t) :
        ∃ k t, k ≤ s.pcnt.toNat + s.inputs.length ∧ steps k s = .next t ∧ CommitsFrame s t := by
      obtain ⟨k, t, hk, hsteps, hcommit⟩ := ih _ hlt hu rfl
      exact ⟨k + 1, t, by omega, (steps_succ k hstep).trans hsteps, hback t hcommit⟩
    cases hq : s.rxq with
    | nil =>
      obtain ⟨u, hstep, hu, hlt, hback⟩ := h.hold hq
      exact advance hstep hu hlt hback
    | cons p q =>
      by_cases hlast : s.pcnt.toNat = 1
      · obtain ⟨hphase, hone, -, hreset, -⟩ := h
        obtain ⟨x, hx⟩ := step_later (selected_pld hphase hq)
          (consumePayload_last hq (BitVec.eq_of_toNat_eq hlast)) hreset
        exact ⟨1, _, by omega, steps_succ 0 hx, commitsFrame_of_last_byte hq hlast x⟩
      · obtain ⟨u, hstep, hu, hlt, hback⟩ := h.payload hq hlast
        exact advance hstep hu hlt hback

/-- Settles O50, by induction on the missing bytes and the entries of `inputs` together: a hold uses up an
entry, a payload byte lowers the count. -/
theorem holdsLeaveNoTrace : Obligations.HoldsLeaveNoTrace :=
  fun _ hphase hone hmax hreset hpending =>
    AwaitsPayload.exists_commitsFrame ⟨hphase, hone, hmax, hreset, hpending⟩

end Sys2Proof.Machine
end

section
/-! PROOF. The tick as a function against the operation-level steps (spec/43_render_pipeline.md R157, R158,
spec/44_main_loop.md R174). -/

namespace Sys2Proof.Machine

/-! ## The render (R157) -/

/-- From FADE, five operations render the tick and go back to POLL, whatever arrives meanwhile. -/
theorem Runs.render {k : Nat} {s u : State} (h : Runs k s u) (hphase : u.phase = .fade)
    (hreset : noReset (s.inputs.take (k + 5)) = true) :
    Runs (k + 5) s ((renderOfTick u).setPhase .poll) := by
  have hreset_take {j : Nat} (hj : j ≤ k + 5) : noReset (s.inputs.take j) = true :=
    noReset_take_of_le hj hreset
  have hfade := h.succ_of_selected (selected_of_phase decode_fade hphase) nofun nofun (exec_fade u)
    (hreset_take (by omega))
  have hassign := hfade.succ_of_selected (selected_of_phase decode_assign rfl) nofun nofun (exec_assign _)
    (hreset_take (by omega))
  have hcorrect := hassign.succ_of_selected (selected_of_phase decode_correct rfl) nofun nofun rfl
    (hreset_take (by omega))
  have hsubmit := hcorrect.succ_of_selected (selected_of_phase decode_submit rfl) nofun nofun (exec_submit _)
    (hreset_take (by omega))
  exact hsubmit.succ_of_selected (selected_of_phase decode_delay rfl) nofun nofun rfl hreset

/-- What the render leaves in a pixel of `raw`: the faded old value, painted over where its zone is lit. -/
theorem renderOfTick_raw_get (s : State) (i : PixelIndex) :
    (renderOfTick s).raw.get i = renderedPixel s.cfg s.mask i (s.raw.get i) := by
  change (assignZones s.cfg.zones s.mask (fadeBuffer s.cfg.fadeRate s.raw)).get i = _
  rw [get_assignZones_of_perm (.refl _), get_fadeBuffer, renderedPixel]

theorem renderOfTick_cor_get (s : State) (i : PixelIndex) :
    (renderOfTick s).cor.get i = correctPixel s.cfg ((renderOfTick s).raw.get i) :=
  get_correctBuffer _ _ _

/-! ## The decode, then the render (R174) -/

/-- `t` is `s` after one tick that decoded the mask `m` from `used` bytes, over the first `k` entries of
`inputs`. -/
def Ticks (s : State) (m : BitVec 8) (used k : Nat) (t : State) : Prop :=
  t.phase = .poll ∧ t.mask = m ∧ t.cfg = s.cfg ∧ t.rxq = s.rxq.drop used ++ arrivals (s.inputs.take k) ∧
    t.inputs = s.inputs.drop k ∧ (∀ i, t.raw.get i = renderedPixel s.cfg m i (s.raw.get i)) ∧
    (∀ i, t.cor.get i = correctPixel s.cfg (t.raw.get i)) ∧ t.txlog = s.txlog ++ [t.cor]

/-- Operations that lead to FADE with the buffers and the frames untouched make a tick with the render that
follows. -/
theorem Runs.tick {j used : Nat} {s u : State} {m : BitVec 8} (h : Runs j s u) (hphase : u.phase = .fade)
    (hmask : u.mask = m) (hrxq : u.rxq = s.rxq.drop used) (hcfg : u.cfg = s.cfg) (hraw : u.raw = s.raw)
    (htxlog : u.txlog = s.txlog) (hreset : noReset (s.inputs.take (j + 5)) = true) :
    ∃ t, steps (j + 5) s = .next t ∧ Ticks s m used (j + 5) t := by
  obtain ⟨-, x, hx⟩ := h.render hphase hreset
  refine ⟨_, hx, ?_⟩
  rw [Ticks, ← hcfg, ← h.inputs, ← hraw, ← htxlog, ← hrxq, ← hmask]
  exact ⟨rfl, rfl, rfl, rfl, rfl, renderOfTick_raw_get u, renderOfTick_cor_get u, rfl⟩

/-- The three things a tick can decode (R126). -/
theorem decodeOfTick_cases {mask m : BitVec 8} {used : Nat} {q : List Byte}
    (h : decodeOfTick mask q = some (m, used)) :
    (q = [] ∧ m = mask ∧ used = 0) ∨
    (∃ b rest, q = b :: rest ∧ isMarker b = false ∧ m = mask ∧ used = 1) ∨
    (∃ b rest, q = b :: rest ∧ isMarker b = true ∧ 13 ≤ rest.length ∧ m = b - markerLo ∧
      used = frameLen) := by
  cases q with
  | nil =>
    cases h
    exact .inl ⟨rfl, rfl, rfl⟩
  | cons b rest =>
    simp only [decodeOfTick] at h
    split_ifs at h with hb hlength <;> cases h
    · exact .inr (.inl ⟨b, rest, rfl, hb, rfl, rfl⟩)
    · exact .inr (.inr ⟨b, rest, rfl, by simpa using hb, by omega, rfl, rfl⟩)

/-- SOF and thirteen PLDs consume a whole frame and commit its mask. -/
theorem runs_whole_frame {s : State} {b : Byte} {rest : List Byte} (hphase : s.phase = .poll)
    (hq : s.rxq = b :: rest) (hb : isMarker b = true) (hlength : 13 ≤ rest.length)
    (hreset : noReset (s.inputs.take 14) = true) :
    Runs 14 s { s with rxq := rest.drop 13, sof := b, pcnt := 0, mask := b - markerLo, phase := .fade } := by
  have hreset_take {j : Nat} (hj : j ≤ 14) : noReset (s.inputs.take j) = true :=
    noReset_take_of_le hj hreset
  have hpayload := (runs_sof hphase hq hb (hreset_take (by omega))).payload rfl (by simp) 12 (by simp)
    (by simp; omega) (hreset_take (by omega))
  have hone : Runs 13 s { s with rxq := rest.drop 12, sof := b, pcnt := 1, phase := .payload } := by
    simpa [State.setRxq, State.setSof, State.setPcnt, State.setPhase] using hpayload
  have hlast : rest.drop 12 = rest[12] :: rest.drop 13 := List.drop_eq_getElem_cons hlength
  have hcommit := hone.succ_of_selected (selected_pld rfl hlast) nofun nofun
    (consumePayload_last (s := { s with rxq := rest.drop 12, sof := b, pcnt := 1, phase := .payload })
      hlast rfl) hreset
  rw [← extract_marker hb]
  exact hcommit

/-- Settles O48: after IDLE, after DROP, or after a whole frame, the render completes the tick. -/
theorem tickIsDecodeThenRender : Obligations.TickIsDecodeThenRender := by
  intro s m used hphase hdecode k hk hreset
  subst hk
  rcases decodeOfTick_cases hdecode with ⟨hq, rfl, rfl⟩ | ⟨b, rest, hq, hb, rfl, rfl⟩ |
    ⟨b, rest, hq, hb, hlength, rfl, rfl⟩
  · have hidle := runs_one (selected_idle hphase hq) rfl (noReset_take_of_le (by simp) hreset)
    exact hidle.tick rfl rfl rfl rfl rfl rfl hreset
  · obtain ⟨i, hi, hsel⟩ := selected_drop hphase hq hb
    have hdrop := runs_one hsel (exec_drop hi hq) (noReset_take_of_le (by simp) hreset)
    exact hdrop.tick rfl rfl (by simp [hq]) rfl rfl rfl hreset
  · have hframe := runs_whole_frame hphase hq hb hlength (noReset_take_of_le (by simp) hreset)
    exact hframe.tick rfl rfl (by simp [hq, frameLen]) rfl rfl rfl hreset

/-! ## Silent ticks (R158) -/

theorem fadePixel_iterate (rate : Byte) (n : Nat) (p : Pixel) :
    (fadePixel rate)^[n] p =
      ⟨(fadeChannel rate)^[n] p.r, (fadeChannel rate)^[n] p.g, (fadeChannel rate)^[n] p.b⟩ := by
  induction n generalizing p with
  | zero => rfl
  | succ n ih => exact ih (fadePixel rate p)

theorem one_le_fadeRate (cfg : Config) : 1 ≤ cfg.fadeRate.toNat := by
  obtain ⟨-, -, -, -, -, -, -, -, hrate⟩ := cfg.legal
  exact hrate

/-- At every legal rate 255 fades leave nothing of a pixel. -/
theorem fadePixel_iterate_eq_black (cfg : Config) {n : Nat} (hn : 255 ≤ n) (p : Pixel) :
    (fadePixel cfg.fadeRate)^[n] p = Pixel.black := by
  have hblack (c : Channel) : (fadeChannel cfg.fadeRate)^[n] c = 0 :=
    fadeChannel_iterate_eq_zero (one_le_fadeRate cfg) n c ((Nat.le_of_lt_succ c.isLt).trans hn)
  rw [fadePixel_iterate, hblack, hblack, hblack]
  rfl

/-- The table keeps black. -/
theorem correctPixel_black (cfg : Config) : correctPixel cfg Pixel.black = Pixel.black := by
  obtain ⟨hzero, -⟩ := cfg.gammaAt_ends
  rw [correctPixel, Pixel.black, hzero]

theorem renderedPixel_of_unlit {cfg : Config} {m : BitVec 8} {i : PixelIndex}
    (h : isLit m (cfg.zoneOf i) = false) : renderedPixel cfg m i = fadePixel cfg.fadeRate := by
  funext p
  simp [renderedPixel, h]

theorem renderedPixel_of_lit {cfg : Config} {m : BitVec 8} {i : PixelIndex}
    (h : isLit m (cfg.zoneOf i) = true) (p : Pixel) :
    renderedPixel cfg m i p = (cfg.zoneOf i).color := by
  simp [renderedPixel, h]

/-- POLL with nothing to read, now or later, and no reset to come. -/
def State.Silent (s : State) : Prop :=
  s.phase = .poll ∧ s.rxq = [] ∧ noReset s.inputs = true ∧ arrivals s.inputs = []

/-- `t` is `s` after `n` ticks on a silent line: each rendered every pixel once and submitted a frame, and
the last one corrected what it rendered. -/
def SilentTicks (s : State) (n : Nat) (t : State) : Prop :=
  t.Silent ∧ t.cfg = s.cfg ∧ t.mask = s.mask ∧ t.txlog.length = s.txlog.length + n ∧
    (∀ i, t.raw.get i = (renderedPixel s.cfg s.mask i)^[n] (s.raw.get i)) ∧
    (1 ≤ n → ∀ i, t.cor.get i = correctPixel s.cfg (t.raw.get i))

/-- A silent tick is the tick that decodes nothing. -/
theorem tick_of_silent {s : State} (h : s.Silent) :
    ∃ t, steps 6 s = .next t ∧ Ticks s s.mask 0 6 t ∧ t.Silent := by
  obtain ⟨hphase, hq, hreset, hsilent⟩ := h
  rw [← arrivals_take_append_drop s.inputs 6, List.append_eq_nil_iff] at hsilent
  have hdecode : decodeOfTick s.mask s.rxq = some (s.mask, 0) := by
    rw [hq]
    rfl
  obtain ⟨t, hsteps, htick⟩ :=
    tickIsDecodeThenRender s s.mask 0 hphase hdecode 6 rfl (noReset_take 6 hreset).1
  refine ⟨t, hsteps, htick, ?_⟩
  obtain ⟨hphase', -, -, hrxq, hinputs, -⟩ := htick
  refine ⟨hphase', ?_, hinputs ▸ (noReset_take 6 hreset).2, hinputs ▸ hsilent.2⟩
  rw [hrxq, hq, hsilent.1]
  rfl

theorem exists_silentTicks {s : State} (h : s.Silent) (n : Nat) :
    ∃ t, steps (6 * n) s = .next t ∧ SilentTicks s n t := by
  induction n with
  | zero => exact ⟨s, rfl, h, rfl, rfl, rfl, fun _ => rfl, nofun⟩
  | succ n ih =>
    obtain ⟨t, hsteps, ht, hcfg, hmask, htxlog, hraw, -⟩ := ih
    obtain ⟨u, hstep, ⟨-, hmask', hcfg', -, -, hraw', hcor', htxlog'⟩, hu⟩ := tick_of_silent ht
    refine ⟨u, (steps_add (6 * n) 6 hsteps).trans hstep, hu, hcfg'.trans hcfg, hmask'.trans hmask, ?_,
      fun i => ?_, fun _ i => ?_⟩
    · rw [htxlog', List.length_append, htxlog, List.length_singleton, Nat.add_assoc]
    · rw [hraw', hcfg, hmask, hraw, Function.iterate_succ_apply']
    · rw [hcor', hcfg]

/-- Settles O51: an unlit pixel is faded once a tick, and a lit one is painted anew by each tick. -/
theorem silentTicksFadeToBlack : Obligations.SilentTicksFadeToBlack := by
  intro s n hphase hq hreset hsilent
  obtain ⟨t, hsteps, ⟨hphase', -⟩, -, hmask, htxlog, hraw, hcor⟩ :=
    exists_silentTicks ⟨hphase, hq, hreset, hsilent⟩ n
  refine ⟨t, hsteps, hphase', hmask, htxlog, fun i => ⟨fun hunlit => ?_, fun hlit hn => ?_⟩⟩
  · have hfaded := hraw i
    rw [renderedPixel_of_unlit hunlit] at hfaded
    refine ⟨hfaded, fun hn => ?_⟩
    have hblack := hfaded.trans (fadePixel_iterate_eq_black s.cfg hn (s.raw.get i))
    exact ⟨hblack, by rw [hcor (by omega), hblack, correctPixel_black]⟩
  · obtain ⟨k, rfl⟩ := Nat.exists_eq_add_of_le' hn
    have hpainted : t.raw.get i = (s.cfg.zoneOf i).color := by
      rw [hraw, Function.iterate_succ_apply', renderedPixel_of_lit hlit]
    exact ⟨hpainted, by rw [hcor hn, hpainted]⟩

end Sys2Proof.Machine
end

section
/-! PROOF. The packing of a frame on the port `tx_frame` (spec/20_memory.md R54, decision D4). -/

namespace Sys2Proof.Machine

/-- The three channels are the three bytes of the packed pixel, red on top. -/
theorem extractLsb'_packPixel (p : Pixel) :
    (packPixel p).extractLsb' 16 8 = p.r ∧ (packPixel p).extractLsb' 8 8 = p.g ∧
      (packPixel p).extractLsb' 0 8 = p.b :=
  ⟨(BitVec.extractLsb'_append_eq_of_le (xhi := p.r ++ p.g) (by omega)).trans
      BitVec.extractLsb'_append_eq_left,
    (BitVec.extractLsb'_append_eq_of_le (xhi := p.r ++ p.g) le_rfl).trans
      BitVec.extractLsb'_append_eq_right,
    BitVec.extractLsb'_append_eq_right⟩

/-- Packed pixels one after the other are the digits of a number in base 2^24, the last pixel's the lowest. -/
theorem foldl_packPixel (pixels : List Pixel) :
    pixels.foldl (fun acc p => acc * 2 ^ 24 + (packPixel p).toNat) 0 =
      Nat.ofDigits (2 ^ 24) (pixels.reverse.map fun p => (packPixel p).toNat) := by
  rw [Nat.ofDigits_eq_foldr, List.foldr_map, List.foldr_reverse]
  congr 1
  funext acc p
  rw [Nat.cast_id, Nat.mul_comm, Nat.add_comm]

/-- A digit of a number is the quotient by its place's weight, modulo the base. -/
theorem ofDigits_div_pow_mod {p : Nat} (digits : List Nat) (h : ∀ d ∈ digits, d < p) {j : Nat}
    (hj : j < digits.length) : Nat.ofDigits p digits / p ^ j % p = digits[j] := by
  have hlt : digits[j] < p := h _ (List.getElem_mem hj)
  rw [Nat.ofDigits_div_pow_eq_ofDigits_drop j (Nat.zero_lt_of_lt hlt) digits h, List.drop_eq_getElem_cons hj,
    Nat.ofDigits_cons, Nat.add_mul_mod_self_left, Nat.mod_eq_of_lt hlt]

/-- The digits of a frame: a packed pixel has 24 bits. -/
theorem packedDigit_lt (pixels : List Pixel) :
    ∀ d ∈ pixels.reverse.map fun p => (packPixel p).toNat, d < 2 ^ 24 := by
  simp only [List.forall_mem_map]
  exact fun p _ => (packPixel p).isLt

/-- Sixty digits fit the 1440 bits. -/
theorem toNat_packFrame (f : PixelBuffer) :
    (packFrame f).toNat = Nat.ofDigits (2 ^ 24) (f.pixels.reverse.map fun p => (packPixel p).toNat) := by
  have hlt := Nat.ofDigits_lt_base_pow_length (by decide) (packedDigit_lt f.pixels)
  have hbits : 24 * nPixels = 1440 := rfl
  rw [List.length_map, List.length_reverse, f.size, ← Nat.pow_mul, hbits] at hlt
  rw [packFrame, foldl_packPixel, BitVec.toNat_ofNat, Nat.mod_eq_of_lt hlt]

/-- Settles O54: the frame is a number of 60 digits, and pixel `i` is the digit of weight `59 - i`. -/
theorem framePacking : Obligations.FramePacking := by
  refine ⟨extractLsb'_packPixel, fun s i => ?_⟩
  have hi : i.val < 60 := i.isLt
  have hsize : s.cor.pixels.length = 60 := s.cor.size
  have hplace : 59 - i.val < (s.cor.pixels.reverse.map fun p => (packPixel p).toNat).length := by
    rw [List.length_map, List.length_reverse, hsize]
    omega
  have hindex : 60 - 1 - (59 - i.val) = i.val := by omega
  apply BitVec.eq_of_toNat_eq
  rw [BitVec.extractLsb'_toNat, txFrame, toNat_packFrame, Nat.shiftRight_eq_div_pow, Nat.pow_mul,
    ofDigits_div_pow_mod _ (packedDigit_lt _) hplace]
  simp [PixelBuffer.get, hsize, hindex]

end Sys2Proof.Machine
end
